-- ==== Sys2Proof/Word.lean ====
section
/-!
DEFINITION. The word types of Chippus CORE: bytes, 16-bit words, register and key numbers, elapsed time.
-/

namespace Sys2Proof

/-- An 8-bit value: a general register, a timer, a byte of memory (R5 `REG_BITS`, `TIMER_BITS`, `BYTE_BITS`). -/
abbrev Byte := BitVec 8

/-- A 16-bit value: `pc`, `I`, a stack entry, an instruction word (R5 `PC_BITS`, `INDEX_BITS`, `STACK_ENTRY_BITS`, `INSTR_BITS`). -/
abbrev Word := BitVec 16

/-- The number of a general register, V0 to VF (R20), or any other 4-bit operand (R72). -/
abbrev Reg := Fin 16

/-- The number of a device key, 0x0 to 0xF (R36). -/
abbrev KeyNum := Fin 16

/-- Elapsed seconds: the exact non-negative rationals (R5 `Time`, D10).  A negative or non-numeric time cannot be
written in this type, which is how the model refuses one (R90). -/
abbrev Time := {q : Rat // 0 ≤ q}

end Sys2Proof
end

