-- ==== Sys2Proof/Syntax.lean ====
section
/-!
DEFINITION. The instructions of Chippus CORE: one constructor per row of the opcode map (R74), named by the row's
pattern, which is the spec's canonical name of the instruction (R81, D23).
-/

namespace Sys2Proof

/-- An instruction with its assembled operands (R72). `x`, `y`: 4-bit register numbers; `kk`: 8-bit constant;
`nnn`: 12-bit constant; `n`: row count 0 to 15. Fields an operation ignores (`y` of 8xy6 and 8xyE, `nnn` of 0nnn, the
whole undefined word) are kept, so that encoding gives back the word that was decoded. -/
inductive Instr where
  /-- 00E0: clear the display (R150). -/
  | op00E0
  /-- 00EE: return from subroutine (R101). -/
  | op00EE
  /-- 1nnn: jump (R102). -/
  | op1nnn (nnn : BitVec 12)
  /-- 2nnn: call (R103). -/
  | op2nnn (nnn : BitVec 12)
  /-- 3xkk: skip if `V[x] = kk` (R104). -/
  | op3xkk (x : Reg) (kk : Byte)
  /-- 4xkk: skip if `V[x] != kk` (R105). -/
  | op4xkk (x : Reg) (kk : Byte)
  /-- 5xy0: skip if `V[x] = V[y]` (R106). -/
  | op5xy0 (x y : Reg)
  /-- 6xkk: load byte (R121). -/
  | op6xkk (x : Reg) (kk : Byte)
  /-- 7xkk: add byte (R122). -/
  | op7xkk (x : Reg) (kk : Byte)
  /-- 8xy0: copy (R123). -/
  | op8xy0 (x y : Reg)
  /-- 8xy1: OR (R124). -/
  | op8xy1 (x y : Reg)
  /-- 8xy2: AND (R125). -/
  | op8xy2 (x y : Reg)
  /-- 8xy3: XOR (R126). -/
  | op8xy3 (x y : Reg)
  /-- 8xy4: add with carry out (R127). -/
  | op8xy4 (x y : Reg)
  /-- 8xy5: subtract (R128). -/
  | op8xy5 (x y : Reg)
  /-- 8xy6: shift right by one; `y` is ignored (R129). -/
  | op8xy6 (x y : Reg)
  /-- 8xy7: reverse subtract (R130). -/
  | op8xy7 (x y : Reg)
  /-- 8xyE: shift left by one; `y` is ignored (R131). -/
  | op8xyE (x y : Reg)
  /-- 9xy0: skip if `V[x] != V[y]` (R107). -/
  | op9xy0 (x y : Reg)
  /-- Annn: load index (R140). -/
  | opAnnn (nnn : BitVec 12)
  /-- Bnnn: jump to `nnn + V[0]` (R108). -/
  | opBnnn (nnn : BitVec 12)
  /-- Cxkk: random byte AND `kk` (R132). -/
  | opCxkk (x : Reg) (kk : Byte)
  /-- Dxyn: draw sprite of `n` rows (R152). -/
  | opDxyn (x y n : Fin 16)
  /-- Ex9E: skip if key `V[x]` is pressed (R170). -/
  | opEx9E (x : Reg)
  /-- ExA1: skip if key `V[x]` is not pressed (R171). -/
  | opExA1 (x : Reg)
  /-- Fx07: read the delay timer (R173). -/
  | opFx07 (x : Reg)
  /-- Fx0A: wait for a key (R172). -/
  | opFx0A (x : Reg)
  /-- Fx15: set the delay timer (R174). -/
  | opFx15 (x : Reg)
  /-- Fx18: set the sound timer (R175). -/
  | opFx18 (x : Reg)
  /-- Fx1E: add register to index (R141). -/
  | opFx1E (x : Reg)
  /-- Fx29: index of glyph (R142). -/
  | opFx29 (x : Reg)
  /-- Fx33: store BCD (R143). -/
  | opFx33 (x : Reg)
  /-- Fx55: store `V[0]` to `V[x]` (R144). -/
  | opFx55 (x : Reg)
  /-- Fx65: load `V[0]` to `V[x]` (R145). -/
  | opFx65 (x : Reg)
  /-- 0nnn: no-op; `nnn` is ignored (R100). -/
  | op0nnn (nnn : BitVec 12)
  /-- An undefined word: no-op (R109). -/
  | undef (w : Word)
  deriving DecidableEq, Repr

end Sys2Proof
end

