-- ==== Sys2Proof/WellFormed.lean ====
section
/-!
DEFINITION. The opcode map of R74 as a table of masks and matches, the row of each instruction, and which terms of
`Instr` stand for an instruction word: 0nnn excludes the words of 00E0 and 00EE, and an undefined word is one that no
other row of the map matches.
-/

namespace Sys2Proof

/-- One row of the opcode map (R74): its mask and its match. -/
structure Row where
  mask : Word
  pattern : Word
  deriving DecidableEq, Repr

/-- A row matches a word when `(w AND mask) = match` (R73). -/
def Row.hits (r : Row) (w : Word) : Bool := (w &&& r.mask) == r.pattern

/-- The row of the opcode map (R74) an instruction belongs to. -/
def Instr.row : Instr → Row
  | .op00E0 => ⟨0xFFFF, 0x00E0⟩
  | .op00EE => ⟨0xFFFF, 0x00EE⟩
  | .op1nnn _ => ⟨0xF000, 0x1000⟩
  | .op2nnn _ => ⟨0xF000, 0x2000⟩
  | .op3xkk _ _ => ⟨0xF000, 0x3000⟩
  | .op4xkk _ _ => ⟨0xF000, 0x4000⟩
  | .op5xy0 _ _ => ⟨0xF00F, 0x5000⟩
  | .op6xkk _ _ => ⟨0xF000, 0x6000⟩
  | .op7xkk _ _ => ⟨0xF000, 0x7000⟩
  | .op8xy0 _ _ => ⟨0xF00F, 0x8000⟩
  | .op8xy1 _ _ => ⟨0xF00F, 0x8001⟩
  | .op8xy2 _ _ => ⟨0xF00F, 0x8002⟩
  | .op8xy3 _ _ => ⟨0xF00F, 0x8003⟩
  | .op8xy4 _ _ => ⟨0xF00F, 0x8004⟩
  | .op8xy5 _ _ => ⟨0xF00F, 0x8005⟩
  | .op8xy6 _ _ => ⟨0xF00F, 0x8006⟩
  | .op8xy7 _ _ => ⟨0xF00F, 0x8007⟩
  | .op8xyE _ _ => ⟨0xF00F, 0x800E⟩
  | .op9xy0 _ _ => ⟨0xF00F, 0x9000⟩
  | .opAnnn _ => ⟨0xF000, 0xA000⟩
  | .opBnnn _ => ⟨0xF000, 0xB000⟩
  | .opCxkk _ _ => ⟨0xF000, 0xC000⟩
  | .opDxyn _ _ _ => ⟨0xF000, 0xD000⟩
  | .opEx9E _ => ⟨0xF0FF, 0xE09E⟩
  | .opExA1 _ => ⟨0xF0FF, 0xE0A1⟩
  | .opFx07 _ => ⟨0xF0FF, 0xF007⟩
  | .opFx0A _ => ⟨0xF0FF, 0xF00A⟩
  | .opFx15 _ => ⟨0xF0FF, 0xF015⟩
  | .opFx18 _ => ⟨0xF0FF, 0xF018⟩
  | .opFx1E _ => ⟨0xF0FF, 0xF01E⟩
  | .opFx29 _ => ⟨0xF0FF, 0xF029⟩
  | .opFx33 _ => ⟨0xF0FF, 0xF033⟩
  | .opFx55 _ => ⟨0xF0FF, 0xF055⟩
  | .opFx65 _ => ⟨0xF0FF, 0xF065⟩
  | .op0nnn _ => ⟨0xF000, 0x0000⟩
  | .undef _ => ⟨0x0000, 0x0000⟩

/-- Rows 1 to 19 of the opcode map, in the order in which they are tested (R73, R74). -/
def rowsTo9 : List Row :=
  [⟨0xFFFF, 0x00E0⟩, ⟨0xFFFF, 0x00EE⟩, ⟨0xF000, 0x1000⟩, ⟨0xF000, 0x2000⟩, ⟨0xF000, 0x3000⟩, ⟨0xF000, 0x4000⟩,
   ⟨0xF00F, 0x5000⟩, ⟨0xF000, 0x6000⟩, ⟨0xF000, 0x7000⟩, ⟨0xF00F, 0x8000⟩, ⟨0xF00F, 0x8001⟩, ⟨0xF00F, 0x8002⟩,
   ⟨0xF00F, 0x8003⟩, ⟨0xF00F, 0x8004⟩, ⟨0xF00F, 0x8005⟩, ⟨0xF00F, 0x8006⟩, ⟨0xF00F, 0x8007⟩, ⟨0xF00F, 0x800E⟩,
   ⟨0xF00F, 0x9000⟩]

/-- Rows 20 to 35 of the opcode map. -/
def rowsFromA : List Row :=
  [⟨0xF000, 0xA000⟩, ⟨0xF000, 0xB000⟩, ⟨0xF000, 0xC000⟩, ⟨0xF000, 0xD000⟩, ⟨0xF0FF, 0xE09E⟩, ⟨0xF0FF, 0xE0A1⟩,
   ⟨0xF0FF, 0xF007⟩, ⟨0xF0FF, 0xF00A⟩, ⟨0xF0FF, 0xF015⟩, ⟨0xF0FF, 0xF018⟩, ⟨0xF0FF, 0xF01E⟩, ⟨0xF0FF, 0xF029⟩,
   ⟨0xF0FF, 0xF033⟩, ⟨0xF0FF, 0xF055⟩, ⟨0xF0FF, 0xF065⟩, ⟨0xF000, 0x0000⟩]

/-- Rows 1 to 35: every row but the last, which matches every word (R74). -/
def definedRows : List Row := rowsTo9 ++ rowsFromA

/-- The whole opcode map, rows 1 to 36, in priority order (R73, R74). -/
def opcodeMap : List Row := definedRows ++ [⟨0x0000, 0x0000⟩]

/-- A word that matches none of rows 1 to 35 (R77, R109). -/
def undefinedWord (w : Word) : Bool := !(definedRows.any fun r => r.hits w)

/-- The terms that stand for an instruction word. Every operand value of a defined instruction is legal (R79). -/
def Instr.wf : Instr → Bool
  | .op00E0 => true
  | .op00EE => true
  | .op1nnn _ => true
  | .op2nnn _ => true
  | .op3xkk _ _ => true
  | .op4xkk _ _ => true
  | .op5xy0 _ _ => true
  | .op6xkk _ _ => true
  | .op7xkk _ _ => true
  | .op8xy0 _ _ => true
  | .op8xy1 _ _ => true
  | .op8xy2 _ _ => true
  | .op8xy3 _ _ => true
  | .op8xy4 _ _ => true
  | .op8xy5 _ _ => true
  | .op8xy6 _ _ => true
  | .op8xy7 _ _ => true
  | .op8xyE _ _ => true
  | .op9xy0 _ _ => true
  | .opAnnn _ => true
  | .opBnnn _ => true
  | .opCxkk _ _ => true
  | .opDxyn _ _ _ => true
  | .opEx9E _ => true
  | .opExA1 _ => true
  | .opFx07 _ => true
  | .opFx0A _ => true
  | .opFx15 _ => true
  | .opFx18 _ => true
  | .opFx1E _ => true
  | .opFx29 _ => true
  | .opFx33 _ => true
  | .opFx55 _ => true
  | .opFx65 _ => true
  | .op0nnn nnn => nnn != 0x0E0 && nnn != 0x0EE
  | .undef w => undefinedWord w

end Sys2Proof
end

