-- ==== Sys2Proof/Decode.lean ====
section
/-!
DEFINITION. The decoder (R70 to R80), written nibble by nibble as the source describes it ("Decode the word into four
4-bit nibbles and dispatch"), and after it the encoder, written from the formats of R71 and the map of R74.
-/

namespace Sys2Proof

/-- Nibble 0, `w[15:12]` (R7). -/
def opField (w : Word) : BitVec 4 := w.extractLsb' 12 4

/-- Nibble 1, `w[11:8]` (R7). -/
def xField (w : Word) : Reg := (w.extractLsb' 8 4).toFin

/-- Nibble 2, `w[7:4]` (R7). -/
def yField (w : Word) : Reg := (w.extractLsb' 4 4).toFin

/-- Nibble 3, `w[3:0]` (R7). -/
def nField (w : Word) : Reg := (w.extractLsb' 0 4).toFin

/-- The low byte, `w[7:0]` (R7). -/
def kkField (w : Word) : Byte := w.extractLsb' 0 8

/-- The low 12 bits, `w[11:0]` (R7). -/
def nnnField (w : Word) : BitVec 12 := w.extractLsb' 0 12

/-- Top nibble 0: 00E0, 00EE, every other word 0nnn (R75, R78). -/
def decode0 (w : Word) : Instr :=
  if w = 0x00E0 then .op00E0
  else if w = 0x00EE then .op00EE
  else .op0nnn (nnnField w)

/-- Top nibble 8: selected by the low nibble (R75). -/
def decode8 (w : Word) : Instr :=
  let x := xField w
  let y := yField w
  let n := nField w
  if n = 0x0 then .op8xy0 x y
  else if n = 0x1 then .op8xy1 x y
  else if n = 0x2 then .op8xy2 x y
  else if n = 0x3 then .op8xy3 x y
  else if n = 0x4 then .op8xy4 x y
  else if n = 0x5 then .op8xy5 x y
  else if n = 0x6 then .op8xy6 x y
  else if n = 0x7 then .op8xy7 x y
  else if n = 0xE then .op8xyE x y
  else .undef w

/-- Top nibble E: selected by the low byte (R75). -/
def decodeE (w : Word) : Instr :=
  let x := xField w
  if kkField w = 0x9E then .opEx9E x
  else if kkField w = 0xA1 then .opExA1 x
  else .undef w

/-- Top nibble F: selected by the low byte (R75). -/
def decodeF (w : Word) : Instr :=
  let x := xField w
  let kk := kkField w
  if kk = 0x07 then .opFx07 x
  else if kk = 0x0A then .opFx0A x
  else if kk = 0x15 then .opFx15 x
  else if kk = 0x18 then .opFx18 x
  else if kk = 0x1E then .opFx1E x
  else if kk = 0x29 then .opFx29 x
  else if kk = 0x33 then .opFx33 x
  else if kk = 0x55 then .opFx55 x
  else if kk = 0x65 then .opFx65 x
  else .undef w

/-- The decoder (R73, R75): total, every one of the 65536 words decodes to exactly one operation. -/
def decodeWord (w : Word) : Instr :=
  let op := opField w
  let x := xField w
  let y := yField w
  let n := nField w
  let kk := kkField w
  let nnn := nnnField w
  if op = 0x0 then decode0 w
  else if op = 0x1 then .op1nnn nnn
  else if op = 0x2 then .op2nnn nnn
  else if op = 0x3 then .op3xkk x kk
  else if op = 0x4 then .op4xkk x kk
  else if op = 0x5 then (if n = 0 then .op5xy0 x y else .undef w)
  else if op = 0x6 then .op6xkk x kk
  else if op = 0x7 then .op7xkk x kk
  else if op = 0x8 then decode8 w
  else if op = 0x9 then (if n = 0 then .op9xy0 x y else .undef w)
  else if op = 0xA then .opAnnn nnn
  else if op = 0xB then .opBnnn nnn
  else if op = 0xC then .opCxkk x kk
  else if op = 0xD then .opDxyn x y n
  else if op = 0xE then decodeE w
  else decodeF w

/-- Two bytes as a word, the byte at the lower address high (R51, R70). -/
def bigEndian (hi lo : Byte) : Word := hi ++ lo

/-- The high byte of a word, stored at the lower address (R70). -/
def highByte (w : Word) : Byte := w.extractLsb' 8 8

/-- The low byte of a word, stored at the higher address (R70). -/
def lowByte (w : Word) : Byte := w.extractLsb' 0 8

/-- Why a byte sequence holds no instruction. No word is rejected (R73, R77): only a missing byte is. -/
inductive DecodeError where
  /-- Fewer than two bytes are left. -/
  | truncated
  deriving DecidableEq, Repr

/-- The decoder on bytes: the instruction and the bytes after it (R70). -/
def decode : List Byte → Except DecodeError (Instr × List Byte)
  | hi :: lo :: rest => .ok (decodeWord (bigEndian hi lo), rest)
  | [_] => .error .truncated
  | [] => .error .truncated

/-- A 4-bit operand as bits. -/
def nibble (r : Fin 16) : BitVec 4 := BitVec.ofFin r

/-- Format `A` (R71): top nibble and a 12-bit constant. -/
def formatA (op : BitVec 4) (nnn : BitVec 12) : Word := op ++ nnn

/-- Format `XK` (R71): top nibble, a register and a byte. Format `X` is the same with a fixed byte. -/
def formatXK (op : BitVec 4) (x : Reg) (kk : Byte) : Word := op ++ (nibble x ++ kk)

/-- Formats `XY` and `XYN` (R71): top nibble, two registers and the low nibble. -/
def formatXYN (op : BitVec 4) (x y : Reg) (n : Fin 16) : Word := op ++ (nibble x ++ (nibble y ++ nibble n))

/-- The encoder: the word of an instruction (R71, R74). -/
def encode : Instr → Word
  | .op00E0 => 0x00E0
  | .op00EE => 0x00EE
  | .op1nnn nnn => formatA 0x1 nnn
  | .op2nnn nnn => formatA 0x2 nnn
  | .op3xkk x kk => formatXK 0x3 x kk
  | .op4xkk x kk => formatXK 0x4 x kk
  | .op5xy0 x y => formatXYN 0x5 x y 0x0
  | .op6xkk x kk => formatXK 0x6 x kk
  | .op7xkk x kk => formatXK 0x7 x kk
  | .op8xy0 x y => formatXYN 0x8 x y 0x0
  | .op8xy1 x y => formatXYN 0x8 x y 0x1
  | .op8xy2 x y => formatXYN 0x8 x y 0x2
  | .op8xy3 x y => formatXYN 0x8 x y 0x3
  | .op8xy4 x y => formatXYN 0x8 x y 0x4
  | .op8xy5 x y => formatXYN 0x8 x y 0x5
  | .op8xy6 x y => formatXYN 0x8 x y 0x6
  | .op8xy7 x y => formatXYN 0x8 x y 0x7
  | .op8xyE x y => formatXYN 0x8 x y 0xE
  | .op9xy0 x y => formatXYN 0x9 x y 0x0
  | .opAnnn nnn => formatA 0xA nnn
  | .opBnnn nnn => formatA 0xB nnn
  | .opCxkk x kk => formatXK 0xC x kk
  | .opDxyn x y n => formatXYN 0xD x y n
  | .opEx9E x => formatXK 0xE x 0x9E
  | .opExA1 x => formatXK 0xE x 0xA1
  | .opFx07 x => formatXK 0xF x 0x07
  | .opFx0A x => formatXK 0xF x 0x0A
  | .opFx15 x => formatXK 0xF x 0x15
  | .opFx18 x => formatXK 0xF x 0x18
  | .opFx1E x => formatXK 0xF x 0x1E
  | .opFx29 x => formatXK 0xF x 0x29
  | .opFx33 x => formatXK 0xF x 0x33
  | .opFx55 x => formatXK 0xF x 0x55
  | .opFx65 x => formatXK 0xF x 0x65
  | .op0nnn nnn => formatA 0x0 nnn
  | .undef w => w

/-- The bytes of an instruction in memory order, high byte first (R70). -/
def encodeBytes (i : Instr) : List Byte := [highByte (encode i), lowByte (encode i)]

/-- The word a row of the opcode table stands for: bit 0 is the least significant bit of the one word; bits at and
above `nbits` are 0. -/
def tableWord (nbits w : Nat) : Word := BitVec.ofNat 16 (w % 2 ^ nbits)

/-- The instruction the decoder reads from the bytes of a table word. -/
def decodeTableWord (nbits w : Nat) : Option Instr :=
  match decode [highByte (tableWord nbits w), lowByte (tableWord nbits w)] with
  | .ok (i, _) => some i
  | .error _ => none

end Sys2Proof
end

