-- ==== Sys2Proof/Config.lean ====
section
/-!
DEFINITION. The constants the source fixes (R5) and the two free values: the time the host hands to a cycle and the
random byte. The parameters the spec leaves OPEN stand in Sys2Proof/Machine/Parameters.lean.
-/

namespace Sys2Proof.Config

/-- `MEM_SIZE` (R5): addresses 0x000 to 0xFFF. -/
abbrev memSize : Nat := 0x1000

/-- `PROGRAM_BASE` (R5): where a program is loaded and where `pc` starts. -/
abbrev programBase : Nat := 0x200

/-- `MAX_PROGRAM_BYTES` (R5): 4096 - 0x200. -/
abbrev maxProgramBytes : Nat := 3584

/-- `FONT_BASE` (R5, R56): the first of the 80 font bytes. -/
abbrev fontBase : Nat := 0x050

/-- The length of the font: 16 glyphs of 5 bytes (R5 `FONT`). -/
abbrev fontBytes : Nat := 80

/-- FREE VALUE (R37, R90; notes/assumptions/1.md). The elapsed time the host hands to the `n`-th executed cycle when
`State.script` does not say it. Nothing constrains it beyond its type. -/
opaque elapsedTime : Nat → Time

/-- FREE VALUE (R132, R197, D12; notes/assumptions/2.md). The random byte of the `n`-th executed Cxkk. Nothing
constrains it. -/
opaque randomByte : Nat → Byte

end Sys2Proof.Config
end

