-- ==== Sys2Proof/Machine/Parameters.lean ====
section
/-!
DEFINITION. The parameters the spec leaves OPEN (92_eei_decisions.md, "Open parameters in one list"), each at the
spec's default, and the contents of memory after reset, which is what an unlisted address reads as.
-/

namespace Sys2Proof.Machine

/-- `PAUSED_AT_CONSTRUCTION` (R5, D7). DESIGN CHOICE of the spec, see notes/assumptions/4.md. -/
def pausedAtConstruction : Bool := true

/-- `STACK_LIMIT` (R5, R27, D14; notes/assumptions/9.md): none, the source's unbounded stack. -/
def stackLimit : Option Nat := none

/-- `FONT_INDEX_BASE` (R5, R142, D15, C1; notes/assumptions/8.md): the constant Fx29 adds. -/
def fontIndexBase : Word := 0x0000

/-- The glyphs of digits 0 to 7. PRESUMED: general knowledge, not in the source
(93_implementation_defined.md G3; notes/assumptions/6.md). -/
def fontLow : List Byte :=
  [0xF0, 0x90, 0x90, 0x90, 0xF0] ++ [0x20, 0x60, 0x20, 0x20, 0x70] ++ [0xF0, 0x10, 0xF0, 0x80, 0xF0] ++
  [0xF0, 0x10, 0xF0, 0x10, 0xF0] ++ [0x90, 0x90, 0xF0, 0x10, 0x10] ++ [0xF0, 0x80, 0xF0, 0x10, 0xF0] ++
  [0xF0, 0x80, 0xF0, 0x90, 0xF0] ++ [0xF0, 0x10, 0x20, 0x40, 0x40]

/-- The glyphs of digits 8 to F. PRESUMED, as `fontLow`. -/
def fontHigh : List Byte :=
  [0xF0, 0x90, 0xF0, 0x90, 0xF0] ++ [0xF0, 0x90, 0xF0, 0x10, 0xF0] ++ [0xF0, 0x90, 0xF0, 0x90, 0x90] ++
  [0xE0, 0x90, 0xE0, 0x90, 0xE0] ++ [0xF0, 0x80, 0x80, 0x80, 0xF0] ++ [0xE0, 0x90, 0x90, 0x90, 0xE0] ++
  [0xF0, 0x80, 0xF0, 0x80, 0xF0] ++ [0xF0, 0x80, 0xF0, 0x80, 0x80]

/-- `FONT` (R5, D16, D25): 16 glyphs of 5 bytes, digit 0 first. -/
def font : List Byte := fontLow ++ fontHigh

/-- The byte at address `a` after a reset (R39, R56): the font at 0x050 to 0x09F, 0x00 elsewhere (D6; notes/assumptions/7.md). It is what an
address reads as that `State.mem` does not list. -/
def initialByte (a : Nat) : Byte :=
  if Config.fontBase ≤ a then font.getD (a - Config.fontBase) 0x00 else 0x00

end Sys2Proof.Machine
end

