-- ==== Sys2Proof/Machine/State.lean ====
section
/-!
DEFINITION. The state of Chippus CORE (R20 to R42) as plain data, the reasons a step can stop, and the state after
construction (R39, R210).
-/

namespace Sys2Proof.Machine

/-- `memory` (R34, R50): the bytes that differ from the reset contents, addresses strictly rising (`Memory.wf`). -/
abbrev Memory := List Host.Cell

/-- The Display Surface (R32, R35): `pix` holds the pixel of column `cx` and row `cy` at `pix[cx][cy]`, true = 1. -/
structure Display where
  pix : Vector (Vector Bool 32) 64
  dirty : Bool
  deriving DecidableEq, Repr

/-- The moves of the host that act on the machine (R223), each between two cycles. Its pure reads are no moves. -/
inductive HostMove where
  /-- Create the machine anew (R210). -/
  | construct
  /-- `load_rom(bytes)` (R211, R213). -/
  | loadRom (bytes : List Byte)
  /-- `execute_cycle(dt)` (R90, R91). -/
  | executeCycle (dt : Time)
  /-- Set `paused` (R30). -/
  | setPaused (value : Bool)
  /-- `set_key(k, pressed)` (R198). -/
  | setKey (k : KeyNum) (pressed : Bool)
  /-- `acknowledge_dirty()` (R158). -/
  | acknowledgeDirty
  deriving DecidableEq, Repr

/-- The model faults (R182); the list is closed. -/
inductive Fault where
  /-- A memory access at an address of 0x1000 or more; raised by the fetch, Dxyn, Fx33, Fx55 and Fx65 (R53) with the
  lowest offending address. SAFE: the source gives such an access no behaviour, and the machine stops (D1). -/
  | addressOutOfRange (address : Nat)
  /-- A key test with `V[x]` above 15; raised by Ex9E and ExA1 (R170, R171). SAFE: the source gives no behaviour (D5). -/
  | keyIndexOutOfRange (key : Nat)
  /-- A push onto a full stack; raised by 2nnn, only where `stackLimit` is finite (R103, D14). SAFE: at the spec's
  default no run raises it. -/
  | stackOverflow
  deriving DecidableEq, Repr

/-- The refusals. Every instruction has a meaning, so no step of this model refuses. -/
inductive Refusal where
  /-- An instruction without a meaning; raised by no arm of `exec`. SAFE: the machine stops. -/
  | notModelled (mnemonic : String)
  deriving DecidableEq, Repr

/-- The machine (R20 to R42), and three fields of the model's own. -/
structure State where
  /-- `V[0]` to `V[15]`; VF is `V[15]` (R20, R22). -/
  v : Vector Byte 16
  /-- The index register `I` (R26). -/
  index : Word
  /-- The program counter (R24). -/
  pc : Word
  /-- The call stack, top first (R27). -/
  stack : List Word
  /-- `DT` (R29). -/
  delayTimer : Byte
  /-- `ST` (R29). -/
  soundTimer : Byte
  /-- `dacc`, the delay timer's accumulator (R31). -/
  delayAcc : Time
  /-- `sacc`, the sound timer's accumulator (R31). -/
  soundAcc : Time
  /-- `paused` (R30). -/
  paused : Bool
  /-- `memory` (R34, R50). -/
  mem : Memory
  /-- `Pix` and `dirty` (R32, R35). -/
  display : Display
  /-- `Key[0]` to `Key[15]`, true = pressed (R36). -/
  keys : Vector Bool 16
  /-- `loaded_code_length` (R33). -/
  loadedCodeLength : Nat
  /-- The MODEL'S OWN: cycles executed so far, the index of the free elapsed time (notes/assumptions/1.md). -/
  cycles : Nat
  /-- The MODEL'S OWN: random bytes drawn so far, the index of the free random byte (notes/assumptions/2.md). -/
  draws : Nat
  /-- The MODEL'S OWN: the host's coming moves, the next one first (notes/assumptions/3.md). -/
  script : List HostMove
  deriving DecidableEq, Repr

/-- What one operation answers. -/
abbrev Result := Host.Outcome State Fault Refusal

/-- A display with every pixel 0, marked dirty (R39, R151, D8). -/
def Display.reset : Display :=
  { pix := Vector.replicate 64 (Vector.replicate 32 false), dirty := true }

/-- The state after construction (R39, column "after construction"; R210). -/
def State.reset : State where
  v := Vector.replicate 16 0x00
  index := 0x0000
  pc := 0x0200
  stack := []
  delayTimer := 0x00
  soundTimer := 0x00
  delayAcc := ⟨0, Rat.le_refl⟩
  soundAcc := ⟨0, Rat.le_refl⟩
  paused := pausedAtConstruction
  mem := []
  display := Display.reset
  keys := Vector.replicate 16 false
  loadedCodeLength := 0
  cycles := 0
  draws := 0
  script := []

end Sys2Proof.Machine
end

