-- ==== Sys2Proof/Machine/Ops.lean ====
section
/-!
DEFINITION. The named operations over registers, memory, the stack and the keys.

TAKING AN EXCEPTION. This hardware has none: no exception, interrupt, trap, trap entry or trap return (R180, R184,
R186), so there is no such operation here; 00EE is the subroutine return and pops the call stack (R101). What the
source leaves without any behaviour ends the run in a model fault (R182).
-/

namespace Sys2Proof.Machine

/-! ### Registers (R20, R22, R24, R26) -/

/-- The number of VF, the flag register (R8, R22). -/
def vf : Reg := 0xF

/-- `V[r]`. -/
def getV (s : State) (r : Reg) : Byte := s.v[r.val]

/-- `V[r] <- b`. -/
def setV (s : State) (r : Reg) (b : Byte) : State := { s with v := s.v.set r.val b }

/-- `pc <- target`. -/
def setPc (s : State) (target : Word) : State := { s with pc := target }

/-- `I <- w`. -/
def setIndex (s : State) (w : Word) : State := { s with index := w }

/-- `DT <- b`. -/
def setDelayTimer (s : State) (b : Byte) : State := { s with delayTimer := b }

/-- `ST <- b`. -/
def setSoundTimer (s : State) (b : Byte) : State := { s with soundTimer := b }

/-- The display after a compositor operation. -/
def setDisplay (s : State) (d : Display) : State := { s with display := d }

/-- The memory after a store. -/
def setMem (s : State) (m : Memory) : State := { s with mem := m }

/-- The stack after a push or a pop. -/
def setStack (s : State) (entries : List Word) : State := { s with stack := entries }

/-- All sixteen registers at once (Fx65). -/
def setRegisters (s : State) (regs : Vector Byte 16) : State := { s with v := regs }

/-- One more random byte has been drawn. -/
def countDraw (s : State) : State := { s with draws := s.draws + 1 }

/-- One more cycle is executed. -/
def countCycle (s : State) : State := { s with cycles := s.cycles + 1 }

/-- The host's coming moves. -/
def setScript (s : State) (moves : List HostMove) : State := { s with script := moves }

/-- `paused <- value` (R30). -/
def setPaused (s : State) (value : Bool) : State := { s with paused := value }

/-- A skip: a further `pc <- pc +_16 2` when the condition holds (R12, R94). -/
def skipIf (condition : Bool) (s : State) : State := if condition then setPc s (s.pc + 2) else s

/-! ### Memory (R50 to R57) -/

/-- `m` lists addresses from `lo` on, strictly rising, inside the address space, none with its reset contents. -/
def Memory.wfFrom : Nat → Memory → Bool
  | _, [] => true
  | lo, (a, b) :: rest =>
      decide (lo ≤ a) && decide (a < Config.memSize) && (b != initialByte a) && Memory.wfFrom (a + 1) rest

/-- The canonical form of memory. -/
def Memory.wf (m : Memory) : Bool := Memory.wfFrom 0 m

/-- The byte at address `a`: the one listed, else the reset contents (R56). Meant for `a < 0x1000`; the meanings check
the range first (R53). -/
def readByte (m : Memory) (a : Nat) : Byte :=
  match m with
  | [] => initialByte a
  | (k, b) :: rest => if a = k then b else readByte rest a

/-- The cell `(a, b)` in front of `rest`, left out when `b` is what `a` reads as unlisted. -/
def consCell (a : Nat) (b : Byte) (rest : Memory) : Memory :=
  if b = initialByte a then rest else (a, b) :: rest

/-- Store the byte `b` at address `a`, keeping the canonical form; it changes exactly that byte (R55). -/
def writeByte (m : Memory) (a : Nat) (b : Byte) : Memory :=
  match m with
  | [] => consCell a b []
  | (k, c) :: rest =>
      if a < k then consCell a b ((k, c) :: rest)
      else if a = k then consCell a b rest
      else (k, c) :: writeByte rest a b

/-- The `len` bytes from `base` on, ascending (R52). -/
def readBlock (m : Memory) (base len : Nat) : List Byte :=
  (List.range len).map fun i => readByte m (base + i)

/-- Store the bytes from `base` on, ascending (R52). -/
def writeBlock (m : Memory) (base : Nat) (bytes : List Byte) : Memory :=
  match bytes with
  | [] => m
  | b :: rest => writeBlock (writeByte m base b) (base + 1) rest

/-- The lowest address of 0x1000 or more among the `len` addresses from `base` on, if there is one (R53, R185). The
addresses are natural numbers: they do not wrap. -/
def firstOutOfRange (base len : Nat) : Option Nat :=
  if len = 0 ∨ base + len ≤ Config.memSize then none else some (max base Config.memSize)

/-- Go on with `k` if all `len` addresses from `base` on exist; else the fault, with nothing done (R10, R53). -/
def ifInRange (base len : Nat) (k : Result) : Result :=
  match firstOutOfRange base len with
  | none => k
  | some a => .fault (.addressOutOfRange a)

/-! ### The call stack (R27) -/

/-- Whether a stack of `depth` entries is full under a limit. -/
def stackFull (limit : Option Nat) (depth : Nat) : Bool :=
  match limit with
  | none => false
  | some l => decide (l ≤ depth)

/-! ### Keys (R36, R170 to R172) -/

/-- Go on with the level of key `k`; a number above 15 selects no key (R170, D5). -/
def withKey (s : State) (k : Byte) (cont : Bool → Result) : Result :=
  if h : k.toNat < 16 then cont s.keys[k.toNat] else .fault (.keyIndexOutOfRange k.toNat)

/-- The lowest-numbered pressed key, if any (R172). -/
def lowestPressed (s : State) : Option Nat := s.keys.toList.findIdx? id

/-- `Key[k] <- pressed` (R198). -/
def setKey (s : State) (k : KeyNum) (pressed : Bool) : State := { s with keys := s.keys.set k.val pressed }

/-! ### The display (R35) -/

/-- `Pix[cx][cy]` (R8, R158). -/
def getPixel (d : Display) (cx : Fin 64) (cy : Fin 32) : Bool := d.pix[cx.val][cy.val]

/-- `Pix[cx][cy] <- Pix[cx][cy] XOR 1` and `dirty <- 1` (R153, R157). -/
def togglePixel (d : Display) (cx : Fin 64) (cy : Fin 32) : Display :=
  { pix := d.pix.set cx.val (d.pix[cx.val].set cy.val (!d.pix[cx.val][cy.val])), dirty := true }

end Sys2Proof.Machine
end

