-- ==== Sys2Proof/Machine/Flags.lean ====
section
/-!
DEFINITION. The flag computations (R22, R120): each gives the whole byte that VF takes, on every execution.
-/

namespace Sys2Proof.Machine

/-- A flag as the byte 0x01 or 0x00 (R22). -/
def flagByte (f : Bool) : Byte := if f then 0x01 else 0x00

/-- Carry of `a + b`: the true sum is 256 or more (R120, R127). -/
def carryOut (a b : Byte) : Byte := flagByte (decide (256 ≤ a.toNat + b.toNat))

/-- Not-borrow of `a - b`: `a >= b` as unsigned numbers (R120, R128). -/
def notBorrow (a b : Byte) : Byte := flagByte (decide (b.toNat ≤ a.toNat))

/-- The bit a right shift by one shifts out (R129). -/
def bitOutRight (a : Byte) : Byte := a &&& 0x01

/-- The bit a left shift by one shifts out (R131). -/
def bitOutLeft (a : Byte) : Byte := (a >>> 7) &&& 0x01

/-- `VF <- b`, the last or first statement of a flag-writing operation (R22). -/
def setVF (s : State) (b : Byte) : State := setV s vf b

end Sys2Proof.Machine
end

