-- ==== Sys2Proof/Machine/Operands.lean ====
section
/-!
DEFINITION. The operand forms (R72, R146): a 12-bit constant, a byte widened to 16 bits, a block of memory through `I`,
the registers `V[0]` to `V[x]`, decimal digits.
-/

namespace Sys2Proof.Machine

/-- `zext_16(nnn)` (R72). -/
def zextAddr (nnn : BitVec 12) : Word := nnn.setWidth 16

/-- `zext_16(b)` of a byte (R141). -/
def zextByte (b : Byte) : Word := b.setWidth 16

/-- The first address of a block through `I` (R146): a natural number. -/
def blockBase (s : State) : Nat := s.index.toNat

/-- How many registers Fx55 and Fx65 move: `x + 1` (R144, R145). -/
def blockCount (x : Reg) : Nat := x.val + 1

/-- `V[0]` to `V[x]`, ascending (R144). -/
def registersUpTo (s : State) (x : Reg) : List Byte := s.v.toList.take (blockCount x)

/-- The registers after Fx65: `V[i]` is the byte at `base + i` for `i <= x`, the others as before (R145). -/
def registersFrom (s : State) (base : Nat) (x : Reg) : Vector Byte 16 :=
  Vector.ofFn fun i : Fin 16 => if i.val ≤ x.val then readByte s.mem (base + i.val) else s.v[i.val]

/-- `I` after a block of `x + 1` bytes: `I +_16 (x + 1)` (R144, R145). -/
def indexAfter (s : State) (x : Reg) : Word := s.index + BitVec.ofNat 16 (blockCount x)

/-- Hundreds, tens, units (R143). -/
def decimalDigits (b : Byte) : List Byte :=
  [BitVec.ofNat 8 (b.toNat / 100), BitVec.ofNat 8 (b.toNat / 10 % 10), BitVec.ofNat 8 (b.toNat % 10)]

/-- `5 *_16 zext_16(b)` (R142): the whole byte is multiplied. -/
def glyphOffset (b : Byte) : Word := 5 * zextByte b

end Sys2Proof.Machine
end

