-- ==== Sys2Proof/Machine/Alu.lean ====
section
/-!
DEFINITION. Load, arithmetic, logic, shift, random (42_load_alu.md). Where VF is also the operand or the result, the
statements of the row run in the order written (R23, D13).
-/

namespace Sys2Proof.Machine

/-- 6xkk: `V[x] <- kk` (R121). -/
def exec6xkk (x : Reg) (kk : Byte) (s : State) : Result := .next (setV s x kk)

/-- 7xkk: `V[x] <- V[x] +_8 kk`, no flag (R122). -/
def exec7xkk (x : Reg) (kk : Byte) (s : State) : Result := .next (setV s x (getV s x + kk))

/-- 8xy0: `V[x] <- V[y]` (R123). -/
def exec8xy0 (x y : Reg) (s : State) : Result := .next (setV s x (getV s y))

/-- 8xy1: `V[x] <- V[x] OR V[y]`, no flag (R124). -/
def exec8xy1 (x y : Reg) (s : State) : Result := .next (setV s x (getV s x ||| getV s y))

/-- 8xy2: `V[x] <- V[x] AND V[y]`, no flag (R125, C7). -/
def exec8xy2 (x y : Reg) (s : State) : Result := .next (setV s x (getV s x &&& getV s y))

/-- 8xy3: `V[x] <- V[x] XOR V[y]`, no flag (R126). -/
def exec8xy3 (x y : Reg) (s : State) : Result := .next (setV s x (getV s x ^^^ getV s y))

/-- 8xy4: the sum first, then VF = carry (R127). -/
def exec8xy4 (x y : Reg) (s : State) : Result :=
  let a := getV s x
  let b := getV s y
  .next (setVF (setV s x (a + b)) (carryOut a b))

/-- 8xy5: the difference first, then VF = not borrow (R128). -/
def exec8xy5 (x y : Reg) (s : State) : Result :=
  let a := getV s x
  let b := getV s y
  .next (setVF (setV s x (a - b)) (notBorrow a b))

/-- 8xy6: VF = bit 0 first, then `V[x]`, read again, is shifted; `y` is ignored (R129). -/
def exec8xy6 (x _y : Reg) (s : State) : Result :=
  let flagged := setVF s (bitOutRight (getV s x))
  .next (setV flagged x (getV flagged x >>> 1))

/-- 8xy7: the reverse difference first, then VF = not borrow of `V[y] - V[x]` (R130). -/
def exec8xy7 (x y : Reg) (s : State) : Result :=
  let a := getV s x
  let b := getV s y
  .next (setVF (setV s x (b - a)) (notBorrow b a))

/-- 8xyE: VF = bit 7 first, then `V[x]`, read again, is shifted; `y` is ignored (R131). -/
def exec8xyE (x _y : Reg) (s : State) : Result :=
  let flagged := setVF s (bitOutLeft (getV s x))
  .next (setV flagged x (getV flagged x <<< 1))

/-- Cxkk: `V[x] <- r AND kk` for the next free random byte `r`, which is used up (R132, D12; notes/assumptions/2.md). -/
def execCxkk (x : Reg) (kk : Byte) (s : State) : Result :=
  .next (countDraw (setV s x (Config.randomByte s.draws &&& kk)))

end Sys2Proof.Machine
end

