-- ==== Sys2Proof/Machine/Control.lean ====
section
/-!
DEFINITION. Control transfer and no-ops (41_control_flow.md). On entry `pc` is already `pc0 + 2` (R94).
-/

namespace Sys2Proof.Machine

/-- 0nnn: no-op, `nnn` is ignored (R100). -/
def exec0nnn (_nnn : BitVec 12) (s : State) : Result := .next s

/-- An undefined word: no-op (R109). -/
def execUndef (_w : Word) (s : State) : Result := .next s

/-- 00EE: pop the call stack into `pc`; no-op if it is empty (R101). -/
def exec00EE (s : State) : Result :=
  match s.stack with
  | [] => .next s
  | top :: rest => .next (setPc (setStack s rest) top)

/-- 1nnn: `pc <- zext_16(nnn)` (R102). -/
def exec1nnn (nnn : BitVec 12) (s : State) : Result := .next (setPc s (zextAddr nnn))

/-- The call under a stack limit: push `pc`, then jump; on a full stack the fault, with nothing done (R103, R27). -/
def callWithLimit (limit : Option Nat) (nnn : BitVec 12) (s : State) : Result :=
  if stackFull limit s.stack.length then .fault .stackOverflow
  else .next (setPc (setStack s (s.pc :: s.stack)) (zextAddr nnn))

/-- 2nnn: push `pc`, `pc <- zext_16(nnn)` (R103). -/
def exec2nnn (nnn : BitVec 12) (s : State) : Result := callWithLimit stackLimit nnn s

/-- 3xkk: skip if `V[x] = kk` (R104). -/
def exec3xkk (x : Reg) (kk : Byte) (s : State) : Result := .next (skipIf (getV s x == kk) s)

/-- 4xkk: skip if `V[x] != kk` (R105). -/
def exec4xkk (x : Reg) (kk : Byte) (s : State) : Result := .next (skipIf (getV s x != kk) s)

/-- 5xy0: skip if `V[x] = V[y]` (R106). -/
def exec5xy0 (x y : Reg) (s : State) : Result := .next (skipIf (getV s x == getV s y) s)

/-- 9xy0: skip if `V[x] != V[y]` (R107). -/
def exec9xy0 (x y : Reg) (s : State) : Result := .next (skipIf (getV s x != getV s y) s)

/-- Bnnn: `pc <- zext_16(nnn) +_16 zext_16(V[0])` (R108). -/
def execBnnn (nnn : BitVec 12) (s : State) : Result := .next (setPc s (zextAddr nnn + zextByte (getV s 0)))

end Sys2Proof.Machine
end

