-- ==== Sys2Proof/Machine/Compositor.lean ====
section
/-!
DEFINITION. The XOR sprite compositor with its collision detector (R151, R153 to R157).
-/

namespace Sys2Proof.Machine

/-- A column reduced modulo 64 (R153). -/
def wrapColumn (n : Nat) : Fin 64 := Fin.ofNat 64 n

/-- A row reduced modulo 32 (R153). -/
def wrapRow (n : Nat) : Fin 32 := Fin.ofNat 32 n

/-- A display with the collision bit found so far. -/
structure Blit where
  display : Display
  collision : Bool
  deriving DecidableEq, Repr

/-- A sprite bit of 1 on one pixel: record a collision if the pixel is set, then invert it (R153, R154). -/
def blitPixel (b : Blit) (cx : Fin 64) (cy : Fin 32) : Blit :=
  { display := togglePixel b.display cx cy, collision := b.collision || getPixel b.display cx cy }

/-- Column `col` of a sprite row is bit `7 - col` of its byte (R52, R153). -/
def spriteBit (row : Byte) (col : Nat) : Bool := row.getLsbD (7 - col)

/-- One bit of a sprite row; a bit of 0 does nothing (R153, R154). -/
def blitBit (ox y : Nat) (row : Byte) (b : Blit) (col : Nat) : Blit :=
  if spriteBit row col then blitPixel b (wrapColumn (ox + col)) (wrapRow y) else b

/-- One sprite row, column 0 first (R153). -/
def blitRow (ox y : Nat) (row : Byte) (b : Blit) : Blit := (List.range 8).foldl (blitBit ox y row) b

/-- The sprite rows from row `y` of the display on (R153). -/
def blitRows (ox y : Nat) (rows : List Byte) (b : Blit) : Blit :=
  match rows with
  | [] => b
  | row :: rest => blitRows ox (y + 1) rest (blitRow ox y row b)

/-- `draw(ox, oy, rows)` (R153): the display after it and the collision bit. -/
def draw (ox oy : Nat) (rows : List Byte) (d : Display) : Blit := blitRows ox oy rows ⟨d, false⟩

/-- `clear()` (R151): every pixel 0, marked dirty. -/
def clearDisplay : Display := { pix := Vector.replicate 64 (Vector.replicate 32 false), dirty := true }

end Sys2Proof.Machine
end

