-- ==== Sys2Proof/Machine/Draw.lean ====
section
/-!
DEFINITION. The display instructions (44_display.md).
-/

namespace Sys2Proof.Machine

/-- 00E0: `clear()` (R150, R151). -/
def exec00E0 (s : State) : Result := .next (setDisplay s clearDisplay)

/-- Dxyn: read the origin, check and read the `n` sprite bytes, blit, write VF last (R152, D21). -/
def execDxyn (x y n : Fin 16) (s : State) : Result :=
  let rows := readBlock s.mem (blockBase s) n.val
  let b := draw (getV s x).toNat (getV s y).toNat rows s.display
  ifInRange (blockBase s) n.val (.next (setVF (setDisplay s b.display) (flagByte b.collision)))

end Sys2Proof.Machine
end

