-- ==== Sys2Proof/Machine/Index.lean ====
section
/-!
DEFINITION. The index register and memory (43_index_memory.md).
-/

namespace Sys2Proof.Machine

/-- Annn: `I <- zext_16(nnn)` (R140). -/
def execAnnn (nnn : BitVec 12) (s : State) : Result := .next (setIndex s (zextAddr nnn))

/-- Fx1E: `I <- I +_16 zext_16(V[x])`, no flag (R141). -/
def execFx1E (x : Reg) (s : State) : Result := .next (setIndex s (s.index + zextByte (getV s x)))

/-- Fx29: `I <- FONT_INDEX_BASE +_16 5 *_16 zext_16(V[x])` (R142, C1, D15). -/
def execFx29 (x : Reg) (s : State) : Result := .next (setIndex s (fontIndexBase + glyphOffset (getV s x)))

/-- Fx33: the decimal digits of `V[x]` at `I`, `I + 1`, `I + 2` (R143). -/
def execFx33 (x : Reg) (s : State) : Result :=
  ifInRange (blockBase s) 3 (.next (setMem s (writeBlock s.mem (blockBase s) (decimalDigits (getV s x)))))

/-- Fx55: `V[0]` to `V[x]` to memory from `I` on; `I <- I +_16 (x + 1)` (R144). -/
def execFx55 (x : Reg) (s : State) : Result :=
  ifInRange (blockBase s) (blockCount x)
    (.next (setIndex (setMem s (writeBlock s.mem (blockBase s) (registersUpTo s x))) (indexAfter s x)))

/-- Fx65: memory from `I` on to `V[0]` to `V[x]`; `I <- I +_16 (x + 1)` (R145). -/
def execFx65 (x : Reg) (s : State) : Result :=
  ifInRange (blockBase s) (blockCount x)
    (.next (setIndex (setRegisters s (registersFrom s (blockBase s) x)) (indexAfter s x)))

end Sys2Proof.Machine
end

