-- ==== Sys2Proof/Machine/Keys.lean ====
section
/-!
DEFINITION. The key and timer instructions (45_keys_timers.md).
-/

namespace Sys2Proof.Machine

/-- Ex9E: skip if key `V[x]` is pressed (R170). -/
def execEx9E (x : Reg) (s : State) : Result :=
  withKey s (getV s x) fun pressed => .next (skipIf pressed s)

/-- ExA1: skip if key `V[x]` is not pressed (R171). -/
def execExA1 (x : Reg) (s : State) : Result :=
  withKey s (getV s x) fun pressed => .next (skipIf (!pressed) s)

/-- Fx0A: back to this instruction while no key is pressed; else `V[x]` is the lowest pressed key (R172). -/
def execFx0A (x : Reg) (s : State) : Result :=
  match lowestPressed s with
  | none => .next (setPc s (s.pc - 2))
  | some k => .next (setV s x (BitVec.ofNat 8 k))

/-- Fx07: `V[x] <- DT` (R173). -/
def execFx07 (x : Reg) (s : State) : Result := .next (setV s x s.delayTimer)

/-- Fx15: `DT <- V[x]`; the accumulator is not changed (R174). -/
def execFx15 (x : Reg) (s : State) : Result := .next (setDelayTimer s (getV s x))

/-- Fx18: `ST <- V[x]`; the accumulator is not changed (R175). -/
def execFx18 (x : Reg) (s : State) : Result := .next (setSoundTimer s (getV s x))

end Sys2Proof.Machine
end

