-- ==== Sys2Proof/Machine/Timers.lean ====
section
/-!
DEFINITION. The countdown timer quantizer (R190 to R194), in exact rational arithmetic (D10).
-/

namespace Sys2Proof.Machine

/-- The quantum, exactly 1/60 second (R5 `TIMER_HZ`). -/
def tick : Time := ⟨1 / 60, by decide +kernel⟩

/-- `a + b`. -/
def addTime (a b : Time) : Time := ⟨a.val + b.val, Rat.add_nonneg a.property b.property⟩

/-- `a - b`; used only where `b <= a`, 0 otherwise. -/
def subTime (a b : Time) : Time :=
  if h : b.val ≤ a.val then ⟨a.val - b.val, sub_nonneg.mpr h⟩ else ⟨0, Rat.le_refl⟩

/-- `TIMER_CMP` (R5, R191, D11, C2; notes/assumptions/10.md): a tick is consumed while the accumulator exceeds 1/60, strictly. -/
def exceedsTick (acc : Time) : Bool := decide (tick.val < acc.val)

/-- One count down, never below 0 and never wrapping (R191 "floor at 0"). -/
def countDown (t : Byte) : Byte := if t = 0 then 0 else t - 1

/-- The loop of R191, at most `turns` turns of it. -/
def drain (turns : Nat) (t : Byte) (acc : Time) : Byte × Time :=
  match turns with
  | 0 => (t, acc)
  | n + 1 => if exceedsTick acc then drain n (countDown t) (subTime acc tick) else (t, acc)

/-- Turns enough for the loop of R191 to end by its own test: one more than the whole ticks in `acc`. -/
def turnsFor (acc : Time) : Nat := 60 * acc.val.num.toNat / acc.val.den + 1

/-- `Quantize(T, acc, dt)` (R191). -/
def quantize (t : Byte) (acc dt : Time) : Byte × Time :=
  if t = 0 then (t, acc) else drain (turnsFor (addTime acc dt)) t (addTime acc dt)

/-- `TimerAdvance(dt)` (R190): the rule for each timer with its own accumulator. -/
def timerAdvance (dt : Time) (s : State) : State :=
  let delay := quantize s.delayTimer s.delayAcc dt
  let sound := quantize s.soundTimer s.soundAcc dt
  { s with delayTimer := delay.1, delayAcc := delay.2, soundTimer := sound.1, soundAcc := sound.2 }

end Sys2Proof.Machine
end

