-- ==== Sys2Proof/Machine/Cycle.lean ====
section
/-!
DEFINITION. The step of the core, `execute_cycle(dt)` (R90 to R94).
-/

namespace Sys2Proof.Machine

/-- The word at `pc` and `pc + 1`, high byte first; `pc + 1` does not wrap (R51). -/
def fetchWord (s : State) : Word := bigEndian (readByte s.mem s.pc.toNat) (readByte s.mem (s.pc.toNat + 1))

/-- Steps 3 to 5 of R91: fetch, `pc <- pc +_16 2`, decode and execute. A failed fetch leaves `pc` as it is (R53). -/
def fetchAndExecute (s : State) : Result :=
  ifInRange s.pc.toNat 2 (exec (decodeWord (fetchWord s)) (setPc s (s.pc + 2)))

/-- `execute_cycle(dt)` (R91): nothing at all while paused; else timers, fetch, pre-increment, dispatch. -/
def executeCycle (dt : Time) (s : State) : Result :=
  if s.paused then .next s else fetchAndExecute (timerAdvance dt (countCycle s))

/-- The state at a model fault of this cycle (R182): as before the instruction, the timers already advanced, and `pc`
already moved on unless it was the fetch that failed. The outcome of a step carries the fault alone
(notes/assumptions/15.md). -/
def stateAtFault (dt : Time) (s : State) : State :=
  let advanced := timerAdvance dt (countCycle s)
  match firstOutOfRange advanced.pc.toNat 2 with
  | none => setPc advanced (advanced.pc + 2)
  | some _ => advanced

/-- The instruction word placed where the fetch reads it, for a machine that runs: not paused, no host move first. -/
def placeFetchWord (s : State) (w : Word) : State :=
  let a := s.pc.toNat
  setScript (setPaused (setMem s (writeBlock s.mem a [highByte w, lowByte w])) false) []

end Sys2Proof.Machine
end

