-- ==== Sys2Proof/Machine/HostMoves.lean ====
section
/-!
DEFINITION. The host's interface (R223): its moves on the machine, its pure reads, and the next move of the system.
-/

namespace Sys2Proof.Machine

/-- What `load_rom` returns to the host (R211, R213). -/
inductive LoadResult where
  | ok
  | romTooLarge
  deriving DecidableEq, Repr

/-- Every piece of the machine's state at its construction default (R210); the model's own fields go on. -/
def construct (s : State) : State :=
  { State.reset with cycles := s.cycles, draws := s.draws, script := s.script }

/-- The reset of `load_rom`: as `construct`, but the key vector keeps what the host last set (R211, D26). -/
def loadReset (s : State) : State := { construct s with keys := s.keys }

/-- `load_rom(bytes)` (R211 to R213): reset, copy to 0x200, record the length, unpause; or reset and `RomTooLarge`. -/
def loadRom (bytes : List Byte) (s : State) : LoadResult × State :=
  let r := loadReset s
  if bytes.length ≤ Config.maxProgramBytes then
    (.ok, { r with mem := writeBlock r.mem Config.programBase bytes, loadedCodeLength := bytes.length, paused := false })
  else (.romTooLarge, r)

/-- `acknowledge_dirty()`: `dirty <- 0` (R158). -/
def acknowledgeDirty (s : State) : State := setDisplay s { s.display with dirty := false }

/-- `is_dirty()` (R158). -/
def isDirty (s : State) : Bool := s.display.dirty

/-- `code_view()`: the loaded bytes from 0x200 on, and `pc` (R65, R201). -/
def codeView (s : State) : List Byte × Word :=
  (readBlock s.mem Config.programBase s.loadedCodeLength, s.pc)

/-- What the host may read for debug display (R201). -/
structure DebugView where
  registers : List Byte
  index : Word
  programCounter : Word
  stack : List Word
  delayTimer : Byte
  soundTimer : Byte
  deriving DecidableEq, Repr

/-- The debug reads (R201). -/
def debugView (s : State) : DebugView :=
  { registers := s.v.toList, index := s.index, programCounter := s.pc, stack := s.stack,
    delayTimer := s.delayTimer, soundTimer := s.soundTimer }

/-- One move of the host (R223). -/
def hostMove (m : HostMove) (s : State) : Result :=
  match m with
  | .construct => .next (construct s)
  | .loadRom bytes => .next (loadRom bytes s).2
  | .executeCycle dt => executeCycle dt s
  | .setPaused value => .next (setPaused s value)
  | .setKey k pressed => .next (setKey s k pressed)
  | .acknowledgeDirty => .next (acknowledgeDirty s)

/-- The next move of the system: the host's first coming move, or, where none is listed, `execute_cycle` with the free
elapsed time of this cycle (notes/assumptions/1.md, notes/assumptions/3.md). -/
def nextMove (s : State) : Result :=
  match s.script with
  | [] => executeCycle (Config.elapsedTime s.cycles) s
  | m :: rest => hostMove m (setScript s rest)

end Sys2Proof.Machine
end

