-- ==== Sys2Proof/Machine/Step.lean ====
section
/-!
DEFINITION. One step of the system, and the placing of an instruction where the next step fetches it.
-/

namespace Sys2Proof.Machine

/-- One step: the next move (R58, R223). -/
def step (s : State) : Host.Outcome State Fault Refusal := nextMove s

/-- `s` with the table word stored where the next step fetches. Construction leaves the machine paused with no program
(R39), so this also stands for what `load_rom` does: it unpauses, and no host move comes first (notes/assumptions/5.md). -/
def State.withFetchWord (s : State) (nbits w : Nat) : State := placeFetchWord s (tableWord nbits w)

end Sys2Proof.Machine
end

