-- ==== Sys2Proof/Safety.lean ====
section
/-!
DEFINITION. What claims about the machine are stated in: the frames of instructions, the registers each instruction may
write (R21), the pixels a sprite covers (R153), and the invariant of the machine.
-/

namespace Sys2Proof.Machine

/-! ### Frames -/

/-- Every register that is not `written` holds what it held. -/
def SameRegistersBut (written : Reg → Prop) (s t : State) : Prop := ∀ r, ¬ written r → getV t r = getV s r

/-- Every byte of memory reads as before. -/
def SameMemory (s t : State) : Prop := ∀ a, readByte t.mem a = readByte s.mem a

/-- Every byte of memory outside the `len` bytes from `base` on reads as before. -/
def SameMemoryBut (base len : Nat) (s t : State) : Prop :=
  ∀ a, (a < base ∨ base + len ≤ a) → readByte t.mem a = readByte s.mem a

/-- Of the machine only registers that are `written` may differ: no other register, no byte of memory, no other field. -/
def OnlyRegisters (written : Reg → Prop) (s t : State) : Prop :=
  SameRegistersBut written s t ∧ SameMemory s t ∧ t = { s with v := t.v }

/-- Of the machine only `pc` may differ. -/
def OnlyPc (s t : State) : Prop :=
  SameRegistersBut (fun _ => False) s t ∧ SameMemory s t ∧ t = { s with pc := t.pc }

/-- Of the machine only `pc` and the call stack may differ. -/
def OnlyPcAndStack (s t : State) : Prop :=
  SameRegistersBut (fun _ => False) s t ∧ SameMemory s t ∧ t = { s with pc := t.pc, stack := t.stack }

/-- Of the machine only `I` may differ. -/
def OnlyIndex (s t : State) : Prop :=
  SameRegistersBut (fun _ => False) s t ∧ SameMemory s t ∧ t = { s with index := t.index }

/-! ### What an instruction may write -/

/-- The registers an instruction writes (R21, R22): `V[x]`, for Fx65 `V[0]` to `V[x]`, and VF for the six flag-writing
operations. -/
def writesRegister (i : Instr) (r : Reg) : Prop :=
  match i with
  | .op00E0 => False
  | .op00EE => False
  | .op1nnn _ => False
  | .op2nnn _ => False
  | .op3xkk _ _ => False
  | .op4xkk _ _ => False
  | .op5xy0 _ _ => False
  | .op6xkk x _ => r = x
  | .op7xkk x _ => r = x
  | .op8xy0 x _ => r = x
  | .op8xy1 x _ => r = x
  | .op8xy2 x _ => r = x
  | .op8xy3 x _ => r = x
  | .op8xy4 x _ => r = x ∨ r = vf
  | .op8xy5 x _ => r = x ∨ r = vf
  | .op8xy6 x _ => r = x ∨ r = vf
  | .op8xy7 x _ => r = x ∨ r = vf
  | .op8xyE x _ => r = x ∨ r = vf
  | .op9xy0 _ _ => False
  | .opAnnn _ => False
  | .opBnnn _ => False
  | .opCxkk x _ => r = x
  | .opDxyn _ _ _ => r = vf
  | .opEx9E _ => False
  | .opExA1 _ => False
  | .opFx07 x => r = x
  | .opFx0A x => r = x
  | .opFx15 _ => False
  | .opFx18 _ => False
  | .opFx1E _ => False
  | .opFx29 _ => False
  | .opFx33 _ => False
  | .opFx55 _ => False
  | .opFx65 x => r.val ≤ x.val
  | .op0nnn _ => False
  | .undef _ => False

/-- The operations after which `pc` may be another value than `pc0 + 2` (R95). -/
def movesPc (i : Instr) : Prop :=
  i = .op00EE ∨ (∃ a, i = .op1nnn a ∨ i = .op2nnn a ∨ i = .opBnnn a) ∨
  (∃ x k, i = .op3xkk x k ∨ i = .op4xkk x k) ∨ (∃ x y, i = .op5xy0 x y ∨ i = .op9xy0 x y) ∨
  (∃ x, i = .opEx9E x ∨ i = .opExA1 x ∨ i = .opFx0A x)

/-! ### The display -/

/-- The sprite `rows` drawn at `(ox, oy)` has a bit of 1 on the pixel `(cx, cy)` (R153): some row `r` and column `col`
whose bit, bit `7 - col` of the byte, is 1, and whose coordinates reduce to it. -/
def spriteCovers (ox oy : Nat) (rows : List Byte) (cx : Fin 64) (cy : Fin 32) : Prop :=
  ∃ r col row, rows[r]? = some row ∧ col < 8 ∧ row.getLsbD (7 - col) = true ∧
    (ox + col) % 64 = cx.val ∧ (oy + r) % 32 = cy.val

/-! ### The invariant -/

/-- The invariant of the machine: memory in its canonical form inside the 4096 addresses (R50); each accumulator at
most one tick (R31, R193); `loaded_code_length` at most 3584 (R33); `pc` at most 0x10FE, the largest value an
instruction leaves in it (R25, R108), and every return address at most 0x1000, some `pc0 + 2` (R101). -/
def MachineInvariant (s : State) : Prop :=
  s.mem.wf = true ∧ s.delayAcc.val ≤ 1 / 60 ∧ s.soundAcc.val ≤ 1 / 60 ∧ s.loadedCodeLength ≤ 3584 ∧
  s.pc.toNat ≤ 0x10FE ∧ ∀ a ∈ s.stack, a.toNat ≤ 0x1000

end Sys2Proof.Machine
end

