-- ==== Sys2Proof/Certificates/Slice0/Obligations.lean ====
section
/-!
DEFINITION. The statements for the provers, from the numbered rules of spec/. In a statement about one instruction, `s`
is the state in which it is dispatched, so `s.pc` is `pc0 + 2` (R94).
-/

open Sys2Proof Sys2Proof.Machine

/-! ### Decoding and encoding (30_encoding.md) -/

/-- R70 to R74: every well-formed instruction, with every operand at every value, is decoded from its own encoding, as a
word and as two bytes high byte first, whatever follows them. -/
def Obligations.DecodeOfEncodeIsTheInstruction : Prop :=
  ∀ (i : Instr) (rest : List Byte), i.wf = true →
    decodeWord (encode i) = i ∧ decode (encodeBytes i ++ rest) = .ok (i, rest)

/-- R70, R73: decoding is total: every word decodes to a well-formed instruction, whose encoding is that word. -/
def Obligations.EncodeOfDecodeIsTheWord : Prop :=
  ∀ w : Word, (decodeWord w).wf = true ∧ encode (decodeWord w) = w

/-- R73, R74: the decoded instruction is that of the first row, from top to bottom, with `(w AND mask) = match`. -/
def Obligations.DecodePicksFirstMatchingRow : Prop :=
  ∀ w : Word, opcodeMap.find? (fun r => r.hits w) = some (decodeWord w).row

/-- R77 (decision D17, log entry 18): the undefined words are exactly the five listed groups, and each of them executes
as a no-op. -/
def Obligations.UndefinedWordsAreTheListedOnes : Prop :=
  ∀ w : Word,
    ((decodeWord w = .undef w) ↔
      (w.extractLsb' 12 4 = 0x5#4 ∧ w.extractLsb' 0 4 ≠ 0x0#4) ∨
      (w.extractLsb' 12 4 = 0x8#4 ∧ w.extractLsb' 0 4 ∈ [0x8#4, 0x9#4, 0xA#4, 0xB#4, 0xC#4, 0xD#4, 0xF#4]) ∨
      (w.extractLsb' 12 4 = 0x9#4 ∧ w.extractLsb' 0 4 ≠ 0x0#4) ∨
      (w.extractLsb' 12 4 = 0xE#4 ∧ w.extractLsb' 0 8 ∉ [0x9E#8, 0xA1#8]) ∨
      (w.extractLsb' 12 4 = 0xF#4 ∧
        w.extractLsb' 0 8 ∉ [0x07#8, 0x0A#8, 0x15#8, 0x18#8, 0x1E#8, 0x29#8, 0x33#8, 0x55#8, 0x65#8])) ∧
    (decodeWord w = .undef w → ∀ s, exec (decodeWord w) s = .next s)

/-- T-DEC vectors of 95_test_vectors.md: a few words written out from the map, one or more per family. -/
def Obligations.SampleWordsDecode : Prop :=
  decodeWord 0x00E0 = .op00E0 ∧ decodeWord 0x00EE = .op00EE ∧ decodeWord 0x0EE0 = .op0nnn 0xEE0 ∧
  decodeWord 0x5AB0 = .op5xy0 0xA 0xB ∧ decodeWord 0x5AB1 = .undef 0x5AB1 ∧ decodeWord 0x8ABE = .op8xyE 0xA 0xB ∧
  decodeWord 0xD123 = .opDxyn 1 2 3 ∧ decodeWord 0xE19E = .opEx9E 1 ∧ decodeWord 0xF133 = .opFx33 1 ∧
  decodeWord 0x7C81 = .op7xkk 0xC 0x81 ∧ decodeWord 0xBABC = .opBnnn 0xABC ∧
  decode [0x12, 0x34] = .ok (.op1nnn 0x234, [])

/-! ### Control transfer and no-ops (41_control_flow.md) -/

/-- R100, R109: 0nnn (every word with top nibble 0 but 0x00E0 and 0x00EE) and every word that matches none of rows 1 to
35 change nothing: the next state is the dispatched one, with `pc` at `pc0 + 2`. -/
def Obligations.NoOpsChangeNothing : Prop :=
  (∀ (nnn : BitVec 12), nnn ≠ 0x0E0 → nnn ≠ 0x0EE → decodeWord (formatA 0x0 nnn) = .op0nnn nnn) ∧
  (∀ (nnn : BitVec 12) (s : State), exec (.op0nnn nnn) s = .next s) ∧
  (∀ w : Word, (∀ r ∈ definedRows, r.hits w = false) → decodeWord w = .undef w) ∧
  (∀ (w : Word) (s : State), exec (.undef w) s = .next s)

/-- R101: 00EE pops the top of the stack into `pc`, used as it is; with an empty stack it is a no-op. -/
def Obligations.ReturnPopsTheCallStack : Prop :=
  decodeWord 0x00EE = .op00EE ∧
  (∀ s : State, s.stack = [] → exec .op00EE s = .next s) ∧
  (∀ (s : State) (top : Word) (rest : List Word), s.stack = top :: rest →
    ∃ t, exec .op00EE s = .next t ∧ t.pc = top ∧ t.stack = rest ∧ OnlyPcAndStack s t)

/-- R102: 1nnn sets `pc` to `nnn`, any of its 4096 values, and changes nothing else. -/
def Obligations.JumpSetsPc : Prop :=
  ∀ (nnn : BitVec 12) (s : State),
    decodeWord (formatA 0x1 nnn) = .op1nnn nnn ∧
    ∃ t, exec (.op1nnn nnn) s = .next t ∧ t.pc.toNat = nnn.toNat ∧ OnlyPc s t

/-- R103: 2nnn pushes the `pc` it is dispatched with (`pc0 + 2`) and sets `pc` to `nnn`; with the source's unbounded
stack it never faults. The common call under a limit `L` faults with `StackOverflow` exactly when the stack holds `L`
entries or more, and else does the same. -/
def Obligations.CallPushesReturnAddress : Prop :=
  ∀ (nnn : BitVec 12) (s : State),
    decodeWord (formatA 0x2 nnn) = .op2nnn nnn ∧
    (∃ t, exec (.op2nnn nnn) s = .next t ∧ t.stack = s.pc :: s.stack ∧ t.pc.toNat = nnn.toNat ∧ OnlyPcAndStack s t) ∧
    (∀ L, callWithLimit (some L) nnn s =
      if L ≤ s.stack.length then .fault .stackOverflow else exec (.op2nnn nnn) s)

/-- Source property S6 (R101, R103): a call followed by a return restores `pc` and the stack, and all else. -/
def Obligations.CallThenReturnRestores : Prop :=
  ∀ (nnn : BitVec 12) (s : State), ∃ t, exec (.op2nnn nnn) s = .next t ∧ exec .op00EE t = .next s

/-- R104, R105: 3xkk and 4xkk move `pc` on by 2 exactly when `V[x]` equals, or differs from, `kk`. -/
def Obligations.SkipsOnByte : Prop :=
  ∀ (x : Reg) (kk : Byte) (s : State),
    decodeWord (formatXK 0x3 x kk) = .op3xkk x kk ∧ decodeWord (formatXK 0x4 x kk) = .op4xkk x kk ∧
    (∃ t, exec (.op3xkk x kk) s = .next t ∧ t.pc = (if getV s x = kk then s.pc + 2 else s.pc) ∧ OnlyPc s t) ∧
    (∃ t, exec (.op4xkk x kk) s = .next t ∧ t.pc = (if getV s x = kk then s.pc else s.pc + 2) ∧ OnlyPc s t)

/-- R106, R107: 5xy0 and 9xy0 move `pc` on by 2 exactly when `V[x]` and `V[y]` are equal, or differ. -/
def Obligations.SkipsOnRegisters : Prop :=
  ∀ (x y : Reg) (s : State),
    decodeWord (formatXYN 0x5 x y 0x0) = .op5xy0 x y ∧ decodeWord (formatXYN 0x9 x y 0x0) = .op9xy0 x y ∧
    (∃ t, exec (.op5xy0 x y) s = .next t ∧ t.pc = (if getV s x = getV s y then s.pc + 2 else s.pc) ∧ OnlyPc s t) ∧
    (∃ t, exec (.op9xy0 x y) s = .next t ∧ t.pc = (if getV s x = getV s y then s.pc else s.pc + 2) ∧ OnlyPc s t)

/-- R108: Bnnn sets `pc` to `nnn + V[0]`, the natural sum, which never wraps and is at most 0x10FE. -/
def Obligations.JumpWithOffsetAddsV0 : Prop :=
  ∀ (nnn : BitVec 12) (s : State),
    decodeWord (formatA 0xB nnn) = .opBnnn nnn ∧
    ∃ t, exec (.opBnnn nnn) s = .next t ∧ t.pc.toNat = nnn.toNat + (getV s 0).toNat ∧ t.pc.toNat ≤ 0x10FE ∧ OnlyPc s t

/-! ### Load, arithmetic, logic, shift, random (42_load_alu.md) -/

/-- R121, R123: 6xkk and 8xy0 put `kk`, or `V[y]`, into `V[x]`, VF included, and change nothing else. -/
def Obligations.LoadByteAndCopy : Prop :=
  ∀ (x y : Reg) (kk : Byte) (s : State),
    decodeWord (formatXK 0x6 x kk) = .op6xkk x kk ∧ decodeWord (formatXYN 0x8 x y 0x0) = .op8xy0 x y ∧
    (∃ t, exec (.op6xkk x kk) s = .next t ∧ getV t x = kk ∧ OnlyRegisters (· = x) s t) ∧
    (∃ t, exec (.op8xy0 x y) s = .next t ∧ getV t x = getV s y ∧ OnlyRegisters (· = x) s t)

/-- R122: 7xkk adds `kk` modulo 256 and writes no flag; adding `kk` and then `256 - kk` (modulo 256) restores the
register, and with it the whole state. -/
def Obligations.AddByteWrapsWithoutFlag : Prop :=
  ∀ (x : Reg) (kk : Byte) (s : State),
    decodeWord (formatXK 0x7 x kk) = .op7xkk x kk ∧
    ∃ t, exec (.op7xkk x kk) s = .next t ∧ (getV t x).toNat = ((getV s x).toNat + kk.toNat) % 256 ∧
      OnlyRegisters (· = x) s t ∧
      ∃ u, exec (.op7xkk x (BitVec.ofNat 8 (256 - kk.toNat))) t = .next u ∧ getV u x = getV s x ∧ u = s

/-- R124, R125, R126: 8xy1, 8xy2, 8xy3 are OR, AND, XOR of `V[x]` with `V[y]`, bit by bit; no flag is written. -/
def Obligations.LogicOperationsAreBitwise : Prop :=
  ∀ (x y : Reg) (s : State),
    decodeWord (formatXYN 0x8 x y 0x1) = .op8xy1 x y ∧ decodeWord (formatXYN 0x8 x y 0x2) = .op8xy2 x y ∧
    decodeWord (formatXYN 0x8 x y 0x3) = .op8xy3 x y ∧
    (∃ t, exec (.op8xy1 x y) s = .next t ∧
      (∀ k, (getV t x).getLsbD k = ((getV s x).getLsbD k || (getV s y).getLsbD k)) ∧ OnlyRegisters (· = x) s t) ∧
    (∃ t, exec (.op8xy2 x y) s = .next t ∧
      (∀ k, (getV t x).getLsbD k = ((getV s x).getLsbD k && (getV s y).getLsbD k)) ∧ OnlyRegisters (· = x) s t) ∧
    (∃ t, exec (.op8xy3 x y) s = .next t ∧
      (∀ k, (getV t x).getLsbD k = ((getV s x).getLsbD k != (getV s y).getLsbD k)) ∧ OnlyRegisters (· = x) s t)

/-- R127, R120: 8xy4 leaves the sum modulo 256 in `V[x]`, unless `x` is 15, and the carry in VF in every case. That the
flag is written last, so that for `x = 15` the sum is lost, is the spec's decision D13 (log entry 13). -/
def Obligations.AddLeavesSumAndCarry : Prop :=
  ∀ (x y : Reg) (s : State),
    decodeWord (formatXYN 0x8 x y 0x4) = .op8xy4 x y ∧
    ∃ t, exec (.op8xy4 x y) s = .next t ∧
      (x ≠ 15 → (getV t x).toNat = ((getV s x).toNat + (getV s y).toNat) % 256) ∧
      getV t 15 = (if 256 ≤ (getV s x).toNat + (getV s y).toNat then 0x01 else 0x00) ∧
      OnlyRegisters (fun r => r = x ∨ r = 15) s t

/-- R128, R130, R120: 8xy5 and 8xy7 leave `V[x] - V[y]`, or `V[y] - V[x]`, modulo 256 in `V[x]`, unless `x` is 15, and
in VF 1 exactly when there is no borrow. The order of the two writes is the spec's decision D13 (log entry 13). -/
def Obligations.SubtractLeavesDifferenceAndNotBorrow : Prop :=
  ∀ (x y : Reg) (s : State),
    decodeWord (formatXYN 0x8 x y 0x5) = .op8xy5 x y ∧ decodeWord (formatXYN 0x8 x y 0x7) = .op8xy7 x y ∧
    (∃ t, exec (.op8xy5 x y) s = .next t ∧
      (x ≠ 15 → (getV t x).toNat = ((getV s x).toNat + 256 - (getV s y).toNat) % 256) ∧
      getV t 15 = (if (getV s y).toNat ≤ (getV s x).toNat then 0x01 else 0x00) ∧
      OnlyRegisters (fun r => r = x ∨ r = 15) s t) ∧
    (∃ t, exec (.op8xy7 x y) s = .next t ∧
      (x ≠ 15 → (getV t x).toNat = ((getV s y).toNat + 256 - (getV s x).toNat) % 256) ∧
      getV t 15 = (if (getV s x).toNat ≤ (getV s y).toNat then 0x01 else 0x00) ∧
      OnlyRegisters (fun r => r = x ∨ r = 15) s t)

/-- R129, R131, R133: 8xy6 and 8xyE halve, or double modulo 256, `V[x]` and leave the bit shifted out in VF; for
`x = 15` VF ends as 0, or as 2 when the old VF was 0x80 or more and 0 else (decision D13, log entry 13); `y` makes no
difference. -/
def Obligations.ShiftsReportTheBitShiftedOut : Prop :=
  ∀ (x y : Reg) (s : State),
    decodeWord (formatXYN 0x8 x y 0x6) = .op8xy6 x y ∧ decodeWord (formatXYN 0x8 x y 0xE) = .op8xyE x y ∧
    (∀ z : Reg, exec (.op8xy6 x z) s = exec (.op8xy6 x y) s ∧ exec (.op8xyE x z) s = exec (.op8xyE x y) s) ∧
    (∃ t, exec (.op8xy6 x y) s = .next t ∧
      (x ≠ 15 → (getV t x).toNat = (getV s x).toNat / 2 ∧ (getV t 15).toNat = (getV s x).toNat % 2) ∧
      (x = 15 → getV t 15 = 0x00) ∧ OnlyRegisters (fun r => r = x ∨ r = 15) s t) ∧
    (∃ t, exec (.op8xyE x y) s = .next t ∧
      (x ≠ 15 → (getV t x).toNat = (getV s x).toNat * 2 % 256 ∧ (getV t 15).toNat = (getV s x).toNat / 128) ∧
      (x = 15 → getV t 15 = (if 0x80 ≤ (getV s 15).toNat then 0x02 else 0x00)) ∧
      OnlyRegisters (fun r => r = x ∨ r = 15) s t)

/-- R132 (decision D12): Cxkk leaves the next free random byte AND `kk` in `V[x]`: a bit can be 1 only where `kk` has a
1, and `kk = 0` gives 0; the byte is used up, and nothing else changes. The random byte is a free value
(notes/assumptions/2.md). -/
def Obligations.RandomByteIsMasked : Prop :=
  ∀ (x : Reg) (kk : Byte) (s : State),
    decodeWord (formatXK 0xC x kk) = .opCxkk x kk ∧
    ∃ t, exec (.opCxkk x kk) s = .next t ∧ getV t x = (Config.randomByte s.draws &&& kk) ∧ t.draws = s.draws + 1 ∧
      (∀ k, (getV t x).getLsbD k = true → kk.getLsbD k = true) ∧ (kk = 0x00 → getV t x = 0x00) ∧
      SameRegistersBut (· = x) s t ∧ SameMemory s t ∧ t = { s with v := t.v, draws := t.draws }

/-! ### Index and memory (43_index_memory.md) -/

/-- R140: Annn puts `nnn` into `I`, at most 0x0FFF, and changes nothing else. -/
def Obligations.LoadIndexSetsI : Prop :=
  ∀ (nnn : BitVec 12) (s : State),
    decodeWord (formatA 0xA nnn) = .opAnnn nnn ∧
    ∃ t, exec (.opAnnn nnn) s = .next t ∧ t.index.toNat = nnn.toNat ∧ t.index.toNat ≤ 0x0FFF ∧ OnlyIndex s t

/-- R141 (decision D4, log entry 17): Fx1E adds `V[x]` to `I` modulo 2^16; no flag is written. -/
def Obligations.AddToIndexWraps : Prop :=
  ∀ (x : Reg) (s : State),
    decodeWord (formatXK 0xF x 0x1E) = .opFx1E x ∧
    ∃ t, exec (.opFx1E x) s = .next t ∧ t.index.toNat = (s.index.toNat + (getV s x).toNat) % 65536 ∧ OnlyIndex s t

/-- R142 (decision D15, log entry 8: `FONT_INDEX_BASE` at its default 0): Fx29 puts 5 times the whole byte `V[x]` into
`I`. -/
def Obligations.GlyphIndexIsFiveTimes : Prop :=
  ∀ (x : Reg) (s : State),
    decodeWord (formatXK 0xF x 0x29) = .opFx29 x ∧
    ∃ t, exec (.opFx29 x) s = .next t ∧ t.index.toNat = 5 * (getV s x).toNat ∧ t.index.toNat ≤ 0x04FB ∧ OnlyIndex s t

/-- R143: where `I + 2` is below 0x1000, Fx33 stores hundreds, tens and units of `V[x]` at `I`, `I + 1`, `I + 2` and
changes nothing else; else it faults with the first of the three addresses that is 0x1000 or more. -/
def Obligations.StoreBcdWritesThreeDigits : Prop :=
  ∀ (x : Reg) (s : State),
    decodeWord (formatXK 0xF x 0x33) = .opFx33 x ∧
    (s.index.toNat + 2 < 0x1000 → s.mem.wf = true →
      ∃ t, exec (.opFx33 x) s = .next t ∧
        (readByte t.mem s.index.toNat).toNat = (getV s x).toNat / 100 ∧
        (readByte t.mem (s.index.toNat + 1)).toNat = (getV s x).toNat / 10 % 10 ∧
        (readByte t.mem (s.index.toNat + 2)).toNat = (getV s x).toNat % 10 ∧
        SameMemoryBut s.index.toNat 3 s t ∧ SameRegistersBut (fun _ => False) s t ∧ t = { s with mem := t.mem }) ∧
    (0x1000 ≤ s.index.toNat + 2 → exec (.opFx33 x) s = .fault (.addressOutOfRange (max s.index.toNat 0x1000)))

/-- R144: where `I + x` is below 0x1000, Fx55 stores `V[i]` at `I + i` for every `i` up to `x`, adds `x + 1` to `I`
modulo 2^16, and changes nothing else; else it faults with the first address that is 0x1000 or more. -/
def Obligations.StoreRegistersWritesTheBlock : Prop :=
  ∀ (x : Reg) (s : State),
    decodeWord (formatXK 0xF x 0x55) = .opFx55 x ∧
    (s.index.toNat + x.val < 0x1000 → s.mem.wf = true →
      ∃ t, exec (.opFx55 x) s = .next t ∧
        (∀ i : Reg, i ≤ x → readByte t.mem (s.index.toNat + i.val) = getV s i) ∧
        t.index.toNat = (s.index.toNat + (x.val + 1)) % 65536 ∧
        SameMemoryBut s.index.toNat (x.val + 1) s t ∧ SameRegistersBut (fun _ => False) s t ∧
        t = { s with mem := t.mem, index := t.index }) ∧
    (0x1000 ≤ s.index.toNat + x.val → exec (.opFx55 x) s = .fault (.addressOutOfRange (max s.index.toNat 0x1000)))

/-- R145: where `I + x` is below 0x1000, Fx65 loads `V[i]` from `I + i` for every `i` up to `x`, adds `x + 1` to `I`
modulo 2^16, and changes nothing else; else it faults with the first address that is 0x1000 or more. -/
def Obligations.LoadRegistersReadsTheBlock : Prop :=
  ∀ (x : Reg) (s : State),
    decodeWord (formatXK 0xF x 0x65) = .opFx65 x ∧
    (s.index.toNat + x.val < 0x1000 →
      ∃ t, exec (.opFx65 x) s = .next t ∧
        (∀ i : Reg, i ≤ x → getV t i = readByte s.mem (s.index.toNat + i.val)) ∧
        t.index.toNat = (s.index.toNat + (x.val + 1)) % 65536 ∧
        SameRegistersBut (· ≤ x) s t ∧ SameMemory s t ∧ t = { s with v := t.v, index := t.index }) ∧
    (0x1000 ≤ s.index.toNat + x.val → exec (.opFx65 x) s = .fault (.addressOutOfRange (max s.index.toNat 0x1000)))

/-- R144, R145: Fx55, then whatever changes registers, then Fx65 from the same index: `V[0]` to `V[x]` are back. -/
def Obligations.StoredRegistersLoadBack : Prop :=
  ∀ (x : Reg) (s t : State) (regs : Vector Byte 16), s.mem.wf = true → exec (.opFx55 x) s = .next t →
    ∃ u, exec (.opFx65 x) { t with v := regs, index := s.index } = .next u ∧
      (∀ i : Reg, i ≤ x → getV u i = getV s i) ∧ u.index = t.index

/-- R62, R51: the two bytes that Fx55 stores at the address of the next instruction are the word the next cycle fetches,
the byte from `V[0]` high, and that cycle decodes and executes it. -/
def Obligations.StoredBytesAreFetchedNext : Prop :=
  ∀ (x : Reg) (s : State) (dt : Time), 1 ≤ x.val → s.index = s.pc → s.pc.toNat + x.val < 0x1000 → s.mem.wf = true →
    s.paused = false →
    ∃ t, exec (.opFx55 x) s = .next t ∧ t.pc = s.pc ∧
      executeCycle dt t = exec (decodeWord (getV s 0 ++ getV s 1)) (setPc (timerAdvance dt (countCycle t)) (s.pc + 2))

/-! ### Display (44_display.md) -/

/-- R150, R151: 00E0 makes every pixel 0 and `dirty` 1, whatever they were, and changes nothing else. -/
def Obligations.ClearMakesEveryPixelZero : Prop :=
  decodeWord 0x00E0 = .op00E0 ∧
  ∀ s : State, ∃ t, exec .op00E0 s = .next t ∧ (∀ cx cy, getPixel t.display cx cy = false) ∧ t.display.dirty = true ∧
    SameRegistersBut (fun _ => False) s t ∧ SameMemory s t ∧ t = { s with display := t.display }

/-- R152 (order of reads and writes: decision D21, log entry 14): where the `n` sprite bytes lie below 0x1000 (always when `n = 0`),
Dxyn draws them at the origin read from `V[x]` and `V[y]` before VF is written, writes the collision flag to VF, and
changes nothing else; with `n = 0` no pixel and not `dirty` changes and VF is 0; else it faults with the first address
that is 0x1000 or more. -/
def Obligations.DrawInstructionDrawsAndFlags : Prop :=
  ∀ (x y n : Fin 16) (s : State),
    decodeWord (formatXYN 0xD x y n) = .opDxyn x y n ∧
    (n = 0 ∨ s.index.toNat + n.val ≤ 0x1000 →
      ∃ t rows, exec (.opDxyn x y n) s = .next t ∧ rows.length = n.val ∧
        (∀ r, r < n.val → rows[r]? = some (readByte s.mem (s.index.toNat + r))) ∧
        t.display = (draw (getV s x).toNat (getV s y).toNat rows s.display).display ∧
        getV t 15 = (if (draw (getV s x).toNat (getV s y).toNat rows s.display).collision then 0x01 else 0x00) ∧
        (n = 0 → t.display = s.display ∧ getV t 15 = 0x00) ∧
        SameRegistersBut (· = 15) s t ∧ SameMemory s t ∧ t = { s with v := t.v, display := t.display }) ∧
    (n ≠ 0 → 0x1000 < s.index.toNat + n.val →
      exec (.opDxyn x y n) s = .fault (.addressOutOfRange (max s.index.toNat 0x1000)))

/-- R153 to R157: the compositor's loops, in closed form, for a sprite of at most 15 rows: exactly the pixels under a
sprite bit of 1 are inverted; there is a collision exactly when one of them was set before; `dirty` becomes 1 exactly
when there is such a pixel, and else keeps its value. No two bits of the sprite address the same pixel. -/
def Obligations.DrawInvertsExactlyTheCoveredPixels : Prop :=
  ∀ (ox oy : Nat) (rows : List Byte) (d : Display), rows.length ≤ 15 →
    (∀ cx cy, spriteCovers ox oy rows cx cy → getPixel (draw ox oy rows d).display cx cy = !getPixel d cx cy) ∧
    (∀ cx cy, ¬ spriteCovers ox oy rows cx cy → getPixel (draw ox oy rows d).display cx cy = getPixel d cx cy) ∧
    ((draw ox oy rows d).collision = true ↔ ∃ cx cy, spriteCovers ox oy rows cx cy ∧ getPixel d cx cy = true) ∧
    ((draw ox oy rows d).display.dirty = true ↔ d.dirty = true ∨ ∃ cx cy, spriteCovers ox oy rows cx cy) ∧
    (∀ r r' c c' : Nat, r < rows.length → r' < rows.length → c < 8 → c' < 8 →
      wrapColumn (ox + c) = wrapColumn (ox + c') → wrapRow (oy + r) = wrapRow (oy + r') → r = r' ∧ c = c')

/-- Source property S4 (R154): the same sprite drawn twice at the same origin restores every pixel, and the second draw
collides exactly when some pixel under the sprite was 0 at first. Neither origin register is VF. -/
def Obligations.RedrawRestoresTheDisplay : Prop :=
  ∀ (x y n : Fin 16) (s t : State), x ≠ 15 → y ≠ 15 → exec (.opDxyn x y n) s = .next t →
    ∃ u, exec (.opDxyn x y n) t = .next u ∧ u.display.pix = s.display.pix ∧
      (getV u 15 = 0x01 ↔ ∃ cx cy,
        spriteCovers (getV s x).toNat (getV s y).toNat (readBlock s.mem s.index.toNat n.val) cx cy ∧
        getPixel s.display cx cy = false)

/-! ### Keys and timer access (45_keys_timers.md) -/

/-- R170, R171 (the fault: decision D5, log entry 16): Ex9E and ExA1 move `pc` on by 2 exactly when the key numbered by the value of
`V[x]` is pressed, or is not; with a value of 16 or more they fault with it. -/
def Obligations.SkipsOnKey : Prop :=
  ∀ (x : Reg) (s : State),
    decodeWord (formatXK 0xE x 0x9E) = .opEx9E x ∧ decodeWord (formatXK 0xE x 0xA1) = .opExA1 x ∧
    (∀ k : KeyNum, (getV s x).toNat = k.val →
      (∃ t, exec (.opEx9E x) s = .next t ∧ t.pc = (if s.keys[k.val] = true then s.pc + 2 else s.pc) ∧ OnlyPc s t) ∧
      (∃ t, exec (.opExA1 x) s = .next t ∧ t.pc = (if s.keys[k.val] = true then s.pc else s.pc + 2) ∧ OnlyPc s t)) ∧
    (16 ≤ (getV s x).toNat →
      exec (.opEx9E x) s = .fault (.keyIndexOutOfRange (getV s x).toNat) ∧
      exec (.opExA1 x) s = .fault (.keyIndexOutOfRange (getV s x).toNat))

/-- R172: Fx0A with no key pressed takes `pc` back by 2, to the same instruction, and writes no register; else it puts
the lowest pressed key into `V[x]` and leaves `pc`. -/
def Obligations.WaitForKeyTakesTheLowest : Prop :=
  ∀ (x : Reg) (s : State),
    decodeWord (formatXK 0xF x 0x0A) = .opFx0A x ∧
    ((∀ k : KeyNum, s.keys[k.val] = false) → ∃ t, exec (.opFx0A x) s = .next t ∧ t.pc = s.pc - 2 ∧ OnlyPc s t) ∧
    (∀ k : KeyNum, s.keys[k.val] = true → (∀ j : KeyNum, j < k → s.keys[j.val] = false) →
      ∃ t, exec (.opFx0A x) s = .next t ∧ (getV t x).toNat = k.val ∧ OnlyRegisters (· = x) s t)

/-- R173, R174, R175: Fx07 puts `DT` into `V[x]`; Fx15 and Fx18 put `V[x]` into `DT` or `ST`, and no accumulator
changes. -/
def Obligations.TimerRegistersAreReadAndWritten : Prop :=
  ∀ (x : Reg) (s : State),
    decodeWord (formatXK 0xF x 0x07) = .opFx07 x ∧ decodeWord (formatXK 0xF x 0x15) = .opFx15 x ∧
    decodeWord (formatXK 0xF x 0x18) = .opFx18 x ∧
    (∃ t, exec (.opFx07 x) s = .next t ∧ getV t x = s.delayTimer ∧ OnlyRegisters (· = x) s t) ∧
    (∃ t, exec (.opFx15 x) s = .next t ∧ t.delayTimer = getV s x ∧ t.delayAcc = s.delayAcc ∧
      SameRegistersBut (fun _ => False) s t ∧ SameMemory s t ∧ t = { s with delayTimer := t.delayTimer }) ∧
    (∃ t, exec (.opFx18 x) s = .next t ∧ t.soundTimer = getV s x ∧ t.soundAcc = s.soundAcc ∧
      SameRegistersBut (fun _ => False) s t ∧ SameMemory s t ∧ t = { s with soundTimer := t.soundTimer })

/-! ### The timer quantizer (60_exceptions.md) -/

/-- R191, R192 (exact arithmetic and strict comparison: decisions D10, D11, log entries 10, 11): a timer at 0 keeps its accumulator and
stays 0; a running one is counted down `k = max(0, ceil(60 * a) - 1)` times, not below 0, where `a` is the accumulator
plus `dt`, and the accumulator ends as `a - k/60`. -/
def Obligations.QuantizeMeetsItsClosedForm : Prop :=
  (∀ acc dt : Time, quantize 0 acc dt = (0, acc)) ∧
  ∀ (t : Byte) (acc dt : Time), t ≠ 0 →
    let a : Rat := acc.val + dt.val
    let k : Nat := (⌈60 * a⌉ - 1).toNat
    (quantize t acc dt).1.toNat = t.toNat - k ∧ (quantize t acc dt).2.val = a - (k : Rat) / 60

/-- R193 (a), (c): after any call the accumulator is at most one tick, if it was before; it is above 0 if the timer ran
and the accumulator plus `dt` was; the timer never rises. -/
def Obligations.AccumulatorStaysWithinOneTick : Prop :=
  ∀ (t : Byte) (acc dt : Time), acc.val ≤ 1 / 60 →
    (quantize t acc dt).2.val ≤ 1 / 60 ∧ (t ≠ 0 → 0 < acc.val + dt.val → 0 < (quantize t acc dt).2.val) ∧
    (quantize t acc dt).1.toNat ≤ t.toNat

/-- R193 (b), source property S7 as corrected by C2: from an empty accumulator, `c + 1` calls of one tick each leave the
timer `c` lower (not below 0) and exactly one tick in the accumulator: 60 calls take 60 to 1, 61 calls to 0. -/
def Obligations.OneTickPerCallAfterTheFirst : Prop :=
  ∀ (t : Byte) (c : Nat), t ≠ 0 →
    let after := (fun p : Byte × Time => quantize p.1 p.2 tick)^[c + 1] (t, ⟨0, Rat.le_refl⟩)
    after.1.toNat = t.toNat - c ∧ after.2.val = 1 / 60

/-- R193 (d): over any sequence of calls after which the timer is still above 0, the counts taken are exactly 60 times
(accumulator at the start + total time - accumulator at the end). -/
def Obligations.CountsMatchElapsedTime : Prop :=
  ∀ (dts : List Time) (t : Byte) (acc : Time),
    let after := dts.foldl (fun p dt => quantize p.1 p.2 dt) (t, acc)
    after.1 ≠ 0 →
      ((t.toNat : Rat) - (after.1.toNat : Rat)) = 60 * (acc.val + (dts.map fun d => d.val).sum - after.2.val)

/-- R190, R194 (two accumulators: decision D9, log entry 12): a timer advance applies the one rule to each timer with its own
accumulator; what happens to one timer does not depend on the other, and nothing else of the machine changes. -/
def Obligations.TimersAdvanceIndependently : Prop :=
  ∀ (dt : Time) (s : State),
    ((timerAdvance dt s).delayTimer, (timerAdvance dt s).delayAcc) = quantize s.delayTimer s.delayAcc dt ∧
    ((timerAdvance dt s).soundTimer, (timerAdvance dt s).soundAcc) = quantize s.soundTimer s.soundAcc dt ∧
    timerAdvance dt s = { s with delayTimer := (timerAdvance dt s).delayTimer, delayAcc := (timerAdvance dt s).delayAcc,
                                 soundTimer := (timerAdvance dt s).soundTimer, soundAcc := (timerAdvance dt s).soundAcc }

/-! ### The step (40_execute_cycle.md) -/

/-- R91, R94, R51: a cycle that is not paused and whose two instruction bytes lie below 0x1000 advances the timers,
decodes the word at `pc` and `pc + 1`, high byte first, moves `pc` on by 2 and executes that well-formed instruction;
where that faults, the state it was executed in is the state at the fault (R182).
A step is such a cycle with the free elapsed time where the host has no other move, or with the time of the host's
coming `execute_cycle`. -/
def Obligations.StepRunsTheDecodedInstruction : Prop :=
  ∀ s : State, s.paused = false → s.pc.toNat + 1 < 0x1000 →
    let w : Word := readByte s.mem s.pc.toNat ++ readByte s.mem (s.pc.toNat + 1)
    (decodeWord w).wf = true ∧
    (∀ dt, executeCycle dt s = exec (decodeWord w) { timerAdvance dt (countCycle s) with pc := s.pc + 2 } ∧
      stateAtFault dt s = { timerAdvance dt (countCycle s) with pc := s.pc + 2 }) ∧
    (s.script = [] → step s = executeCycle (Config.elapsedTime s.cycles) s) ∧
    (∀ dt rest, s.script = .executeCycle dt :: rest → step s = executeCycle dt { s with script := rest })

/-- R91 step 1, R92 (a), R202: a paused cycle changes nothing at all, whatever `dt` is. -/
def Obligations.PausedCycleChangesNothing : Prop :=
  ∀ s : State, s.paused = true → (∀ dt, executeCycle dt s = .next s) ∧ (s.script = [] → step s = .next s)

/-- R53 (decision D1, log entry 15): a fetch that needs an address of 0x1000 or more, which is one with `pc >= 0xFFF`, faults with the
first such address; `pc = 0xFFF` faults on its second byte. The state at that fault has only the timers advanced (R182). -/
def Obligations.FetchOutOfRangeFaults : Prop :=
  ∀ (dt : Time) (s : State), s.paused = false → 0xFFF ≤ s.pc.toNat →
    executeCycle dt s = .fault (.addressOutOfRange (if s.pc.toNat = 0xFFF then 0x1000 else s.pc.toNat)) ∧
    stateAtFault dt s = timerAdvance dt (countCycle s)

/-- R223, R30, R158, R198: the host's moves between cycles. Each is the step where it comes next; it does what the table
says and nothing else. -/
def Obligations.HostMovesActBetweenCycles : Prop :=
  ∀ (s : State) (rest : List HostMove),
    (∀ b, s.script = .setPaused b :: rest → step s = .next { s with script := rest, paused := b }) ∧
    (∀ k p, s.script = .setKey k p :: rest →
      ∃ t, step s = .next t ∧ t.keys[k.val] = p ∧ (∀ j : KeyNum, j ≠ k → t.keys[j.val] = s.keys[j.val]) ∧
        t = { s with script := rest, keys := t.keys }) ∧
    (s.script = .acknowledgeDirty :: rest →
      ∃ t, step s = .next t ∧ t.display.dirty = false ∧ t.display.pix = s.display.pix ∧
        t = { s with script := rest, display := t.display }) ∧
    (∀ bytes, s.script = .loadRom bytes :: rest → step s = .next (loadRom bytes { s with script := rest }).2) ∧
    (s.script = .construct :: rest →
      step s = .next { State.reset with script := rest, cycles := s.cycles, draws := s.draws })

/-! ### Reset and load (10_state.md, 70_reset_and_hazards.md) -/

/-- R39, R210: the state after construction. The source states `pc`, the place of the font and the cleared display; the
other values are the spec's decisions D6, D7, D8 (log entries 4, 7), and the font bytes its parameter `FONT` (D16, log
entry 6). -/
def Obligations.ConstructionDefaults : Prop :=
  State.reset.pc = 0x0200 ∧ (∀ r, getV State.reset r = 0x00) ∧ State.reset.index = 0x0000 ∧ State.reset.stack = [] ∧
  State.reset.delayTimer = 0x00 ∧ State.reset.soundTimer = 0x00 ∧ State.reset.delayAcc.val = 0 ∧
  State.reset.soundAcc.val = 0 ∧ State.reset.paused = true ∧
  (∀ a, 0x050 ≤ a → a ≤ 0x09F → font[a - 0x050]? = some (readByte State.reset.mem a)) ∧
  (∀ a, a < 0x050 ∨ 0x09F < a → readByte State.reset.mem a = 0x00) ∧
  (∀ cx cy, getPixel State.reset.display cx cy = false) ∧ State.reset.display.dirty = true ∧
  (∀ k : KeyNum, State.reset.keys[k.val] = false) ∧ State.reset.loadedCodeLength = 0

/-- R211 (the key vector: decision D26, log entry 19): a load of at most 3584 bytes succeeds: the bytes lie from 0x200 on, every other
byte is that of the reset, the length is recorded, the machine is not paused, the keys are as before, and everything
else is at its construction default. -/
def Obligations.LoadRomResetsAndCopies : Prop :=
  ∀ (bytes : List Byte) (s : State), bytes.length ≤ 3584 →
    ∃ t, loadRom bytes s = (.ok, t) ∧
      (∀ i b, bytes[i]? = some b → readByte t.mem (0x200 + i) = b) ∧
      (∀ a, (a < 0x200 ∨ 0x200 + bytes.length ≤ a) → readByte t.mem a = readByte State.reset.mem a) ∧
      t = { State.reset with mem := t.mem, loadedCodeLength := bytes.length, paused := false, keys := s.keys,
                             cycles := s.cycles, draws := s.draws, script := s.script } ∧
      t.mem.wf = true

/-- R213 (decisions D18, D26, log entry 19): a load of more than 3584 bytes returns `RomTooLarge` and leaves the construction defaults,
with nothing copied, and the keys as before. -/
def Obligations.LoadRomTooLargeLeavesReset : Prop :=
  ∀ (bytes : List Byte) (s : State), 3584 < bytes.length →
    loadRom bytes s = (.romTooLarge, { State.reset with keys := s.keys, cycles := s.cycles, draws := s.draws,
                                                        script := s.script })

/-- R65, R201: `code_view` shows the loaded bytes of memory from 0x200 on, in order, and `pc`; the debug reads show the
registers, `I`, `pc`, the stack and the timers. They are functions of the state and change nothing. -/
def Obligations.HostViewsShowTheState : Prop :=
  ∀ s : State,
    (codeView s).1.length = s.loadedCodeLength ∧ (codeView s).2 = s.pc ∧
    (∀ i, i < s.loadedCodeLength → (codeView s).1[i]? = some (readByte s.mem (0x200 + i))) ∧
    (∀ r : Reg, (debugView s).registers[r.val]? = some (getV s r)) ∧ (debugView s).index = s.index ∧
    (debugView s).programCounter = s.pc ∧ (debugView s).stack = s.stack ∧ (debugView s).delayTimer = s.delayTimer ∧
    (debugView s).soundTimer = s.soundTimer

/-! ### The whole machine -/

/-- The invariant `MachineInvariant` holds after construction. -/
def Obligations.InvariantHoldsAtReset : Prop := MachineInvariant State.reset

/-- The invariant `MachineInvariant` is kept by every step, of the core and of the host alike: memory stays canonical and inside the
4096 addresses, each accumulator stays at most one tick, the loaded length at most 3584, `pc` at most 0x10FE, and every
return address at most 0x1000. -/
def Obligations.EveryStepKeepsTheInvariant : Prop :=
  ∀ s t : State, MachineInvariant s → step s = .next t → MachineInvariant t

/-- R34, R62: only Fx33 and Fx55 write memory: after any other instruction every byte reads as before. -/
def Obligations.OnlyFx33AndFx55WriteMemory : Prop :=
  ∀ (i : Instr) (s t : State), (∀ x, i ≠ .opFx33 x) → (∀ x, i ≠ .opFx55 x) → exec i s = .next t →
    SameMemory s t ∧ t.mem = s.mem

/-- R27: only 2nnn and 00EE touch the call stack: after any other instruction it is as before. -/
def Obligations.OnlyCallAndReturnTouchTheStack : Prop :=
  ∀ (i : Instr) (s t : State), (∀ a, i ≠ .op2nnn a) → i ≠ .op00EE → exec i s = .next t → t.stack = s.stack

/-- R35, R157: only 00E0 and Dxyn reach the display, and no instruction clears the dirty flag. -/
def Obligations.OnlyClearAndDrawTouchTheDisplay : Prop :=
  ∀ (i : Instr) (s t : State), exec i s = .next t →
    (i ≠ .op00E0 → (∀ x y n, i ≠ .opDxyn x y n) → t.display = s.display) ∧
    (s.display.dirty = true → t.display.dirty = true)

/-- R187, R30, R33, R36: no instruction changes `paused`, the key vector or `loaded_code_length`, and none changes the
host's coming moves. -/
def Obligations.InstructionsCannotReachHostState : Prop :=
  ∀ (i : Instr) (s t : State), exec i s = .next t →
    t.paused = s.paused ∧ t.keys = s.keys ∧ t.loadedCodeLength = s.loadedCodeLength ∧ t.script = s.script

/-- R28, R31: in its dispatch only Fx15 writes `DT`, only Fx18 writes `ST`, and no instruction writes an accumulator. -/
def Obligations.OnlyFx15AndFx18WriteTheTimers : Prop :=
  ∀ (i : Instr) (s t : State), exec i s = .next t →
    ((∀ x, i ≠ .opFx15 x) → t.delayTimer = s.delayTimer) ∧ ((∀ x, i ≠ .opFx18 x) → t.soundTimer = s.soundTimer) ∧
    t.delayAcc = s.delayAcc ∧ t.soundAcc = s.soundAcc

/-- R26: only Annn, Fx1E, Fx29, Fx55 and Fx65 write `I`. -/
def Obligations.OnlyIndexInstructionsWriteI : Prop :=
  ∀ (i : Instr) (s t : State), (∀ a, i ≠ .opAnnn a) → (∀ x, i ≠ .opFx1E x) → (∀ x, i ≠ .opFx29 x) →
    (∀ x, i ≠ .opFx55 x) → (∀ x, i ≠ .opFx65 x) → exec i s = .next t → t.index = s.index

/-- R21, R22: an instruction leaves every register as it was but those that R21 says it writes. -/
def Obligations.RegistersNotWrittenAreUnchanged : Prop :=
  ∀ (i : Instr) (s t : State), exec i s = .next t → SameRegistersBut (writesRegister i) s t

/-- R95, R110: an instruction other than 00EE, 1nnn, 2nnn, Bnnn, the six skips and Fx0A leaves `pc` at `pc0 + 2`. -/
def Obligations.PcMovesOnlyByControlTransfer : Prop :=
  ∀ (i : Instr) (s t : State), ¬ movesPc i → exec i s = .next t → t.pc = s.pc

/-- R182, R183 (decisions D1, D5, D14, log entries 9, 15, 16): the faults of the instructions are exactly the listed ones: a sprite, BCD or
register block that reaches 0x1000, with its first address there, and a key test of a value above 15. -/
def Obligations.InstructionFaultsAreTheListedOnes : Prop :=
  ∀ (i : Instr) (s : State) (f : Fault), exec i s = .fault f ↔
    (f = .addressOutOfRange (max s.index.toNat 0x1000) ∧
      ((∃ x y n, i = .opDxyn x y n ∧ 1 ≤ n.val ∧ 0x1000 ≤ s.index.toNat + n.val - 1) ∨
       (∃ x, i = .opFx33 x ∧ 0x1000 ≤ s.index.toNat + 2) ∨
       (∃ x, (i = .opFx55 x ∨ i = .opFx65 x) ∧ 0x1000 ≤ s.index.toNat + x.val))) ∨
    (∃ x, (i = .opEx9E x ∨ i = .opExA1 x) ∧ 16 ≤ (getV s x).toNat ∧ f = .keyIndexOutOfRange (getV s x).toNat)

/-- R180: no instruction and no step is refused: each answers a next state or a model fault. -/
def Obligations.NothingIsRefused : Prop :=
  (∀ (i : Instr) (s : State) (r : Refusal), exec i s ≠ .refused r) ∧ ∀ (s : State) (r : Refusal), step s ≠ .refused r
end

