-- ==== Sys2Proof/Laws/State.lean ====
section
/-!
SUPPORT. One lemma per field per update of State, so that no proof unfolds a record update.
-/

namespace Sys2Proof.Machine

variable (s : State)

/-! ### setV -/

@[simp] theorem setV_v (r : Reg) (b : Byte) : (setV s r b).v = s.v.set r.val b := rfl
@[simp] theorem setV_index (r : Reg) (b : Byte) : (setV s r b).index = s.index := rfl
@[simp] theorem setV_pc (r : Reg) (b : Byte) : (setV s r b).pc = s.pc := rfl
@[simp] theorem setV_stack (r : Reg) (b : Byte) : (setV s r b).stack = s.stack := rfl
@[simp] theorem setV_delayTimer (r : Reg) (b : Byte) : (setV s r b).delayTimer = s.delayTimer := rfl
@[simp] theorem setV_soundTimer (r : Reg) (b : Byte) : (setV s r b).soundTimer = s.soundTimer := rfl
@[simp] theorem setV_delayAcc (r : Reg) (b : Byte) : (setV s r b).delayAcc = s.delayAcc := rfl
@[simp] theorem setV_soundAcc (r : Reg) (b : Byte) : (setV s r b).soundAcc = s.soundAcc := rfl
@[simp] theorem setV_paused (r : Reg) (b : Byte) : (setV s r b).paused = s.paused := rfl
@[simp] theorem setV_mem (r : Reg) (b : Byte) : (setV s r b).mem = s.mem := rfl
@[simp] theorem setV_display (r : Reg) (b : Byte) : (setV s r b).display = s.display := rfl
@[simp] theorem setV_keys (r : Reg) (b : Byte) : (setV s r b).keys = s.keys := rfl
@[simp] theorem setV_loadedCodeLength (r : Reg) (b : Byte) : (setV s r b).loadedCodeLength = s.loadedCodeLength := rfl
@[simp] theorem setV_cycles (r : Reg) (b : Byte) : (setV s r b).cycles = s.cycles := rfl
@[simp] theorem setV_draws (r : Reg) (b : Byte) : (setV s r b).draws = s.draws := rfl
@[simp] theorem setV_script (r : Reg) (b : Byte) : (setV s r b).script = s.script := rfl

/-! ### setPc -/

@[simp] theorem setPc_v (w : Word) : (setPc s w).v = s.v := rfl
@[simp] theorem setPc_index (w : Word) : (setPc s w).index = s.index := rfl
@[simp] theorem setPc_pc (w : Word) : (setPc s w).pc = w := rfl
@[simp] theorem setPc_stack (w : Word) : (setPc s w).stack = s.stack := rfl
@[simp] theorem setPc_delayTimer (w : Word) : (setPc s w).delayTimer = s.delayTimer := rfl
@[simp] theorem setPc_soundTimer (w : Word) : (setPc s w).soundTimer = s.soundTimer := rfl
@[simp] theorem setPc_delayAcc (w : Word) : (setPc s w).delayAcc = s.delayAcc := rfl
@[simp] theorem setPc_soundAcc (w : Word) : (setPc s w).soundAcc = s.soundAcc := rfl
@[simp] theorem setPc_paused (w : Word) : (setPc s w).paused = s.paused := rfl
@[simp] theorem setPc_mem (w : Word) : (setPc s w).mem = s.mem := rfl
@[simp] theorem setPc_display (w : Word) : (setPc s w).display = s.display := rfl
@[simp] theorem setPc_keys (w : Word) : (setPc s w).keys = s.keys := rfl
@[simp] theorem setPc_loadedCodeLength (w : Word) : (setPc s w).loadedCodeLength = s.loadedCodeLength := rfl
@[simp] theorem setPc_cycles (w : Word) : (setPc s w).cycles = s.cycles := rfl
@[simp] theorem setPc_draws (w : Word) : (setPc s w).draws = s.draws := rfl
@[simp] theorem setPc_script (w : Word) : (setPc s w).script = s.script := rfl

/-! ### setIndex -/

@[simp] theorem setIndex_v (w : Word) : (setIndex s w).v = s.v := rfl
@[simp] theorem setIndex_index (w : Word) : (setIndex s w).index = w := rfl
@[simp] theorem setIndex_pc (w : Word) : (setIndex s w).pc = s.pc := rfl
@[simp] theorem setIndex_stack (w : Word) : (setIndex s w).stack = s.stack := rfl
@[simp] theorem setIndex_delayTimer (w : Word) : (setIndex s w).delayTimer = s.delayTimer := rfl
@[simp] theorem setIndex_soundTimer (w : Word) : (setIndex s w).soundTimer = s.soundTimer := rfl
@[simp] theorem setIndex_delayAcc (w : Word) : (setIndex s w).delayAcc = s.delayAcc := rfl
@[simp] theorem setIndex_soundAcc (w : Word) : (setIndex s w).soundAcc = s.soundAcc := rfl
@[simp] theorem setIndex_paused (w : Word) : (setIndex s w).paused = s.paused := rfl
@[simp] theorem setIndex_mem (w : Word) : (setIndex s w).mem = s.mem := rfl
@[simp] theorem setIndex_display (w : Word) : (setIndex s w).display = s.display := rfl
@[simp] theorem setIndex_keys (w : Word) : (setIndex s w).keys = s.keys := rfl
@[simp] theorem setIndex_loadedCodeLength (w : Word) : (setIndex s w).loadedCodeLength = s.loadedCodeLength := rfl
@[simp] theorem setIndex_cycles (w : Word) : (setIndex s w).cycles = s.cycles := rfl
@[simp] theorem setIndex_draws (w : Word) : (setIndex s w).draws = s.draws := rfl
@[simp] theorem setIndex_script (w : Word) : (setIndex s w).script = s.script := rfl

/-! ### setDelayTimer -/

@[simp] theorem setDelayTimer_v (b : Byte) : (setDelayTimer s b).v = s.v := rfl
@[simp] theorem setDelayTimer_index (b : Byte) : (setDelayTimer s b).index = s.index := rfl
@[simp] theorem setDelayTimer_pc (b : Byte) : (setDelayTimer s b).pc = s.pc := rfl
@[simp] theorem setDelayTimer_stack (b : Byte) : (setDelayTimer s b).stack = s.stack := rfl
@[simp] theorem setDelayTimer_delayTimer (b : Byte) : (setDelayTimer s b).delayTimer = b := rfl
@[simp] theorem setDelayTimer_soundTimer (b : Byte) : (setDelayTimer s b).soundTimer = s.soundTimer := rfl
@[simp] theorem setDelayTimer_delayAcc (b : Byte) : (setDelayTimer s b).delayAcc = s.delayAcc := rfl
@[simp] theorem setDelayTimer_soundAcc (b : Byte) : (setDelayTimer s b).soundAcc = s.soundAcc := rfl
@[simp] theorem setDelayTimer_paused (b : Byte) : (setDelayTimer s b).paused = s.paused := rfl
@[simp] theorem setDelayTimer_mem (b : Byte) : (setDelayTimer s b).mem = s.mem := rfl
@[simp] theorem setDelayTimer_display (b : Byte) : (setDelayTimer s b).display = s.display := rfl
@[simp] theorem setDelayTimer_keys (b : Byte) : (setDelayTimer s b).keys = s.keys := rfl
@[simp] theorem setDelayTimer_loadedCodeLength (b : Byte) : (setDelayTimer s b).loadedCodeLength = s.loadedCodeLength := rfl
@[simp] theorem setDelayTimer_cycles (b : Byte) : (setDelayTimer s b).cycles = s.cycles := rfl
@[simp] theorem setDelayTimer_draws (b : Byte) : (setDelayTimer s b).draws = s.draws := rfl
@[simp] theorem setDelayTimer_script (b : Byte) : (setDelayTimer s b).script = s.script := rfl

/-! ### setSoundTimer -/

@[simp] theorem setSoundTimer_v (b : Byte) : (setSoundTimer s b).v = s.v := rfl
@[simp] theorem setSoundTimer_index (b : Byte) : (setSoundTimer s b).index = s.index := rfl
@[simp] theorem setSoundTimer_pc (b : Byte) : (setSoundTimer s b).pc = s.pc := rfl
@[simp] theorem setSoundTimer_stack (b : Byte) : (setSoundTimer s b).stack = s.stack := rfl
@[simp] theorem setSoundTimer_delayTimer (b : Byte) : (setSoundTimer s b).delayTimer = s.delayTimer := rfl
@[simp] theorem setSoundTimer_soundTimer (b : Byte) : (setSoundTimer s b).soundTimer = b := rfl
@[simp] theorem setSoundTimer_delayAcc (b : Byte) : (setSoundTimer s b).delayAcc = s.delayAcc := rfl
@[simp] theorem setSoundTimer_soundAcc (b : Byte) : (setSoundTimer s b).soundAcc = s.soundAcc := rfl
@[simp] theorem setSoundTimer_paused (b : Byte) : (setSoundTimer s b).paused = s.paused := rfl
@[simp] theorem setSoundTimer_mem (b : Byte) : (setSoundTimer s b).mem = s.mem := rfl
@[simp] theorem setSoundTimer_display (b : Byte) : (setSoundTimer s b).display = s.display := rfl
@[simp] theorem setSoundTimer_keys (b : Byte) : (setSoundTimer s b).keys = s.keys := rfl
@[simp] theorem setSoundTimer_loadedCodeLength (b : Byte) : (setSoundTimer s b).loadedCodeLength = s.loadedCodeLength := rfl
@[simp] theorem setSoundTimer_cycles (b : Byte) : (setSoundTimer s b).cycles = s.cycles := rfl
@[simp] theorem setSoundTimer_draws (b : Byte) : (setSoundTimer s b).draws = s.draws := rfl
@[simp] theorem setSoundTimer_script (b : Byte) : (setSoundTimer s b).script = s.script := rfl

/-! ### setDisplay -/

@[simp] theorem setDisplay_v (d : Display) : (setDisplay s d).v = s.v := rfl
@[simp] theorem setDisplay_index (d : Display) : (setDisplay s d).index = s.index := rfl
@[simp] theorem setDisplay_pc (d : Display) : (setDisplay s d).pc = s.pc := rfl
@[simp] theorem setDisplay_stack (d : Display) : (setDisplay s d).stack = s.stack := rfl
@[simp] theorem setDisplay_delayTimer (d : Display) : (setDisplay s d).delayTimer = s.delayTimer := rfl
@[simp] theorem setDisplay_soundTimer (d : Display) : (setDisplay s d).soundTimer = s.soundTimer := rfl
@[simp] theorem setDisplay_delayAcc (d : Display) : (setDisplay s d).delayAcc = s.delayAcc := rfl
@[simp] theorem setDisplay_soundAcc (d : Display) : (setDisplay s d).soundAcc = s.soundAcc := rfl
@[simp] theorem setDisplay_paused (d : Display) : (setDisplay s d).paused = s.paused := rfl
@[simp] theorem setDisplay_mem (d : Display) : (setDisplay s d).mem = s.mem := rfl
@[simp] theorem setDisplay_display (d : Display) : (setDisplay s d).display = d := rfl
@[simp] theorem setDisplay_keys (d : Display) : (setDisplay s d).keys = s.keys := rfl
@[simp] theorem setDisplay_loadedCodeLength (d : Display) : (setDisplay s d).loadedCodeLength = s.loadedCodeLength := rfl
@[simp] theorem setDisplay_cycles (d : Display) : (setDisplay s d).cycles = s.cycles := rfl
@[simp] theorem setDisplay_draws (d : Display) : (setDisplay s d).draws = s.draws := rfl
@[simp] theorem setDisplay_script (d : Display) : (setDisplay s d).script = s.script := rfl

/-! ### setMem -/

@[simp] theorem setMem_v (m : Memory) : (setMem s m).v = s.v := rfl
@[simp] theorem setMem_index (m : Memory) : (setMem s m).index = s.index := rfl
@[simp] theorem setMem_pc (m : Memory) : (setMem s m).pc = s.pc := rfl
@[simp] theorem setMem_stack (m : Memory) : (setMem s m).stack = s.stack := rfl
@[simp] theorem setMem_delayTimer (m : Memory) : (setMem s m).delayTimer = s.delayTimer := rfl
@[simp] theorem setMem_soundTimer (m : Memory) : (setMem s m).soundTimer = s.soundTimer := rfl
@[simp] theorem setMem_delayAcc (m : Memory) : (setMem s m).delayAcc = s.delayAcc := rfl
@[simp] theorem setMem_soundAcc (m : Memory) : (setMem s m).soundAcc = s.soundAcc := rfl
@[simp] theorem setMem_paused (m : Memory) : (setMem s m).paused = s.paused := rfl
@[simp] theorem setMem_mem (m : Memory) : (setMem s m).mem = m := rfl
@[simp] theorem setMem_display (m : Memory) : (setMem s m).display = s.display := rfl
@[simp] theorem setMem_keys (m : Memory) : (setMem s m).keys = s.keys := rfl
@[simp] theorem setMem_loadedCodeLength (m : Memory) : (setMem s m).loadedCodeLength = s.loadedCodeLength := rfl
@[simp] theorem setMem_cycles (m : Memory) : (setMem s m).cycles = s.cycles := rfl
@[simp] theorem setMem_draws (m : Memory) : (setMem s m).draws = s.draws := rfl
@[simp] theorem setMem_script (m : Memory) : (setMem s m).script = s.script := rfl

/-! ### setStack -/

@[simp] theorem setStack_v (l : List Word) : (setStack s l).v = s.v := rfl
@[simp] theorem setStack_index (l : List Word) : (setStack s l).index = s.index := rfl
@[simp] theorem setStack_pc (l : List Word) : (setStack s l).pc = s.pc := rfl
@[simp] theorem setStack_stack (l : List Word) : (setStack s l).stack = l := rfl
@[simp] theorem setStack_delayTimer (l : List Word) : (setStack s l).delayTimer = s.delayTimer := rfl
@[simp] theorem setStack_soundTimer (l : List Word) : (setStack s l).soundTimer = s.soundTimer := rfl
@[simp] theorem setStack_delayAcc (l : List Word) : (setStack s l).delayAcc = s.delayAcc := rfl
@[simp] theorem setStack_soundAcc (l : List Word) : (setStack s l).soundAcc = s.soundAcc := rfl
@[simp] theorem setStack_paused (l : List Word) : (setStack s l).paused = s.paused := rfl
@[simp] theorem setStack_mem (l : List Word) : (setStack s l).mem = s.mem := rfl
@[simp] theorem setStack_display (l : List Word) : (setStack s l).display = s.display := rfl
@[simp] theorem setStack_keys (l : List Word) : (setStack s l).keys = s.keys := rfl
@[simp] theorem setStack_loadedCodeLength (l : List Word) : (setStack s l).loadedCodeLength = s.loadedCodeLength := rfl
@[simp] theorem setStack_cycles (l : List Word) : (setStack s l).cycles = s.cycles := rfl
@[simp] theorem setStack_draws (l : List Word) : (setStack s l).draws = s.draws := rfl
@[simp] theorem setStack_script (l : List Word) : (setStack s l).script = s.script := rfl

/-! ### setRegisters -/

@[simp] theorem setRegisters_v (l : Vector Byte 16) : (setRegisters s l).v = l := rfl
@[simp] theorem setRegisters_index (l : Vector Byte 16) : (setRegisters s l).index = s.index := rfl
@[simp] theorem setRegisters_pc (l : Vector Byte 16) : (setRegisters s l).pc = s.pc := rfl
@[simp] theorem setRegisters_stack (l : Vector Byte 16) : (setRegisters s l).stack = s.stack := rfl
@[simp] theorem setRegisters_delayTimer (l : Vector Byte 16) : (setRegisters s l).delayTimer = s.delayTimer := rfl
@[simp] theorem setRegisters_soundTimer (l : Vector Byte 16) : (setRegisters s l).soundTimer = s.soundTimer := rfl
@[simp] theorem setRegisters_delayAcc (l : Vector Byte 16) : (setRegisters s l).delayAcc = s.delayAcc := rfl
@[simp] theorem setRegisters_soundAcc (l : Vector Byte 16) : (setRegisters s l).soundAcc = s.soundAcc := rfl
@[simp] theorem setRegisters_paused (l : Vector Byte 16) : (setRegisters s l).paused = s.paused := rfl
@[simp] theorem setRegisters_mem (l : Vector Byte 16) : (setRegisters s l).mem = s.mem := rfl
@[simp] theorem setRegisters_display (l : Vector Byte 16) : (setRegisters s l).display = s.display := rfl
@[simp] theorem setRegisters_keys (l : Vector Byte 16) : (setRegisters s l).keys = s.keys := rfl
@[simp] theorem setRegisters_loadedCodeLength (l : Vector Byte 16) : (setRegisters s l).loadedCodeLength = s.loadedCodeLength := rfl
@[simp] theorem setRegisters_cycles (l : Vector Byte 16) : (setRegisters s l).cycles = s.cycles := rfl
@[simp] theorem setRegisters_draws (l : Vector Byte 16) : (setRegisters s l).draws = s.draws := rfl
@[simp] theorem setRegisters_script (l : Vector Byte 16) : (setRegisters s l).script = s.script := rfl

/-! ### countDraw -/

@[simp] theorem countDraw_v : (countDraw s).v = s.v := rfl
@[simp] theorem countDraw_index : (countDraw s).index = s.index := rfl
@[simp] theorem countDraw_pc : (countDraw s).pc = s.pc := rfl
@[simp] theorem countDraw_stack : (countDraw s).stack = s.stack := rfl
@[simp] theorem countDraw_delayTimer : (countDraw s).delayTimer = s.delayTimer := rfl
@[simp] theorem countDraw_soundTimer : (countDraw s).soundTimer = s.soundTimer := rfl
@[simp] theorem countDraw_delayAcc : (countDraw s).delayAcc = s.delayAcc := rfl
@[simp] theorem countDraw_soundAcc : (countDraw s).soundAcc = s.soundAcc := rfl
@[simp] theorem countDraw_paused : (countDraw s).paused = s.paused := rfl
@[simp] theorem countDraw_mem : (countDraw s).mem = s.mem := rfl
@[simp] theorem countDraw_display : (countDraw s).display = s.display := rfl
@[simp] theorem countDraw_keys : (countDraw s).keys = s.keys := rfl
@[simp] theorem countDraw_loadedCodeLength : (countDraw s).loadedCodeLength = s.loadedCodeLength := rfl
@[simp] theorem countDraw_cycles : (countDraw s).cycles = s.cycles := rfl
@[simp] theorem countDraw_draws : (countDraw s).draws = s.draws + 1 := rfl
@[simp] theorem countDraw_script : (countDraw s).script = s.script := rfl

/-! ### countCycle -/

@[simp] theorem countCycle_v : (countCycle s).v = s.v := rfl
@[simp] theorem countCycle_index : (countCycle s).index = s.index := rfl
@[simp] theorem countCycle_pc : (countCycle s).pc = s.pc := rfl
@[simp] theorem countCycle_stack : (countCycle s).stack = s.stack := rfl
@[simp] theorem countCycle_delayTimer : (countCycle s).delayTimer = s.delayTimer := rfl
@[simp] theorem countCycle_soundTimer : (countCycle s).soundTimer = s.soundTimer := rfl
@[simp] theorem countCycle_delayAcc : (countCycle s).delayAcc = s.delayAcc := rfl
@[simp] theorem countCycle_soundAcc : (countCycle s).soundAcc = s.soundAcc := rfl
@[simp] theorem countCycle_paused : (countCycle s).paused = s.paused := rfl
@[simp] theorem countCycle_mem : (countCycle s).mem = s.mem := rfl
@[simp] theorem countCycle_display : (countCycle s).display = s.display := rfl
@[simp] theorem countCycle_keys : (countCycle s).keys = s.keys := rfl
@[simp] theorem countCycle_loadedCodeLength : (countCycle s).loadedCodeLength = s.loadedCodeLength := rfl
@[simp] theorem countCycle_cycles : (countCycle s).cycles = s.cycles + 1 := rfl
@[simp] theorem countCycle_draws : (countCycle s).draws = s.draws := rfl
@[simp] theorem countCycle_script : (countCycle s).script = s.script := rfl

/-! ### setScript -/

@[simp] theorem setScript_v (l : List HostMove) : (setScript s l).v = s.v := rfl
@[simp] theorem setScript_index (l : List HostMove) : (setScript s l).index = s.index := rfl
@[simp] theorem setScript_pc (l : List HostMove) : (setScript s l).pc = s.pc := rfl
@[simp] theorem setScript_stack (l : List HostMove) : (setScript s l).stack = s.stack := rfl
@[simp] theorem setScript_delayTimer (l : List HostMove) : (setScript s l).delayTimer = s.delayTimer := rfl
@[simp] theorem setScript_soundTimer (l : List HostMove) : (setScript s l).soundTimer = s.soundTimer := rfl
@[simp] theorem setScript_delayAcc (l : List HostMove) : (setScript s l).delayAcc = s.delayAcc := rfl
@[simp] theorem setScript_soundAcc (l : List HostMove) : (setScript s l).soundAcc = s.soundAcc := rfl
@[simp] theorem setScript_paused (l : List HostMove) : (setScript s l).paused = s.paused := rfl
@[simp] theorem setScript_mem (l : List HostMove) : (setScript s l).mem = s.mem := rfl
@[simp] theorem setScript_display (l : List HostMove) : (setScript s l).display = s.display := rfl
@[simp] theorem setScript_keys (l : List HostMove) : (setScript s l).keys = s.keys := rfl
@[simp] theorem setScript_loadedCodeLength (l : List HostMove) : (setScript s l).loadedCodeLength = s.loadedCodeLength := rfl
@[simp] theorem setScript_cycles (l : List HostMove) : (setScript s l).cycles = s.cycles := rfl
@[simp] theorem setScript_draws (l : List HostMove) : (setScript s l).draws = s.draws := rfl
@[simp] theorem setScript_script (l : List HostMove) : (setScript s l).script = l := rfl

/-! ### setPaused -/

@[simp] theorem setPaused_v (b : Bool) : (setPaused s b).v = s.v := rfl
@[simp] theorem setPaused_index (b : Bool) : (setPaused s b).index = s.index := rfl
@[simp] theorem setPaused_pc (b : Bool) : (setPaused s b).pc = s.pc := rfl
@[simp] theorem setPaused_stack (b : Bool) : (setPaused s b).stack = s.stack := rfl
@[simp] theorem setPaused_delayTimer (b : Bool) : (setPaused s b).delayTimer = s.delayTimer := rfl
@[simp] theorem setPaused_soundTimer (b : Bool) : (setPaused s b).soundTimer = s.soundTimer := rfl
@[simp] theorem setPaused_delayAcc (b : Bool) : (setPaused s b).delayAcc = s.delayAcc := rfl
@[simp] theorem setPaused_soundAcc (b : Bool) : (setPaused s b).soundAcc = s.soundAcc := rfl
@[simp] theorem setPaused_paused (b : Bool) : (setPaused s b).paused = b := rfl
@[simp] theorem setPaused_mem (b : Bool) : (setPaused s b).mem = s.mem := rfl
@[simp] theorem setPaused_display (b : Bool) : (setPaused s b).display = s.display := rfl
@[simp] theorem setPaused_keys (b : Bool) : (setPaused s b).keys = s.keys := rfl
@[simp] theorem setPaused_loadedCodeLength (b : Bool) : (setPaused s b).loadedCodeLength = s.loadedCodeLength := rfl
@[simp] theorem setPaused_cycles (b : Bool) : (setPaused s b).cycles = s.cycles := rfl
@[simp] theorem setPaused_draws (b : Bool) : (setPaused s b).draws = s.draws := rfl
@[simp] theorem setPaused_script (b : Bool) : (setPaused s b).script = s.script := rfl

/-! ### setKey -/

@[simp] theorem setKey_v (k : KeyNum) (b : Bool) : (setKey s k b).v = s.v := rfl
@[simp] theorem setKey_index (k : KeyNum) (b : Bool) : (setKey s k b).index = s.index := rfl
@[simp] theorem setKey_pc (k : KeyNum) (b : Bool) : (setKey s k b).pc = s.pc := rfl
@[simp] theorem setKey_stack (k : KeyNum) (b : Bool) : (setKey s k b).stack = s.stack := rfl
@[simp] theorem setKey_delayTimer (k : KeyNum) (b : Bool) : (setKey s k b).delayTimer = s.delayTimer := rfl
@[simp] theorem setKey_soundTimer (k : KeyNum) (b : Bool) : (setKey s k b).soundTimer = s.soundTimer := rfl
@[simp] theorem setKey_delayAcc (k : KeyNum) (b : Bool) : (setKey s k b).delayAcc = s.delayAcc := rfl
@[simp] theorem setKey_soundAcc (k : KeyNum) (b : Bool) : (setKey s k b).soundAcc = s.soundAcc := rfl
@[simp] theorem setKey_paused (k : KeyNum) (b : Bool) : (setKey s k b).paused = s.paused := rfl
@[simp] theorem setKey_mem (k : KeyNum) (b : Bool) : (setKey s k b).mem = s.mem := rfl
@[simp] theorem setKey_display (k : KeyNum) (b : Bool) : (setKey s k b).display = s.display := rfl
@[simp] theorem setKey_keys (k : KeyNum) (b : Bool) : (setKey s k b).keys = s.keys.set k.val b := rfl
@[simp] theorem setKey_loadedCodeLength (k : KeyNum) (b : Bool) : (setKey s k b).loadedCodeLength = s.loadedCodeLength := rfl
@[simp] theorem setKey_cycles (k : KeyNum) (b : Bool) : (setKey s k b).cycles = s.cycles := rfl
@[simp] theorem setKey_draws (k : KeyNum) (b : Bool) : (setKey s k b).draws = s.draws := rfl
@[simp] theorem setKey_script (k : KeyNum) (b : Bool) : (setKey s k b).script = s.script := rfl

/-! ### setVF -/

@[simp] theorem setVF_v (b : Byte) : (setVF s b).v = s.v.set 15 b := rfl
@[simp] theorem setVF_index (b : Byte) : (setVF s b).index = s.index := rfl
@[simp] theorem setVF_pc (b : Byte) : (setVF s b).pc = s.pc := rfl
@[simp] theorem setVF_stack (b : Byte) : (setVF s b).stack = s.stack := rfl
@[simp] theorem setVF_delayTimer (b : Byte) : (setVF s b).delayTimer = s.delayTimer := rfl
@[simp] theorem setVF_soundTimer (b : Byte) : (setVF s b).soundTimer = s.soundTimer := rfl
@[simp] theorem setVF_delayAcc (b : Byte) : (setVF s b).delayAcc = s.delayAcc := rfl
@[simp] theorem setVF_soundAcc (b : Byte) : (setVF s b).soundAcc = s.soundAcc := rfl
@[simp] theorem setVF_paused (b : Byte) : (setVF s b).paused = s.paused := rfl
@[simp] theorem setVF_mem (b : Byte) : (setVF s b).mem = s.mem := rfl
@[simp] theorem setVF_display (b : Byte) : (setVF s b).display = s.display := rfl
@[simp] theorem setVF_keys (b : Byte) : (setVF s b).keys = s.keys := rfl
@[simp] theorem setVF_loadedCodeLength (b : Byte) : (setVF s b).loadedCodeLength = s.loadedCodeLength := rfl
@[simp] theorem setVF_cycles (b : Byte) : (setVF s b).cycles = s.cycles := rfl
@[simp] theorem setVF_draws (b : Byte) : (setVF s b).draws = s.draws := rfl
@[simp] theorem setVF_script (b : Byte) : (setVF s b).script = s.script := rfl

/-! ### skipIf -/

@[simp] theorem skipIf_v (c : Bool) : (skipIf c s).v = s.v := by cases c <;> rfl
@[simp] theorem skipIf_index (c : Bool) : (skipIf c s).index = s.index := by cases c <;> rfl
@[simp] theorem skipIf_pc (c : Bool) : (skipIf c s).pc = if c then s.pc + 2 else s.pc := by cases c <;> rfl
@[simp] theorem skipIf_stack (c : Bool) : (skipIf c s).stack = s.stack := by cases c <;> rfl
@[simp] theorem skipIf_delayTimer (c : Bool) : (skipIf c s).delayTimer = s.delayTimer := by cases c <;> rfl
@[simp] theorem skipIf_soundTimer (c : Bool) : (skipIf c s).soundTimer = s.soundTimer := by cases c <;> rfl
@[simp] theorem skipIf_delayAcc (c : Bool) : (skipIf c s).delayAcc = s.delayAcc := by cases c <;> rfl
@[simp] theorem skipIf_soundAcc (c : Bool) : (skipIf c s).soundAcc = s.soundAcc := by cases c <;> rfl
@[simp] theorem skipIf_paused (c : Bool) : (skipIf c s).paused = s.paused := by cases c <;> rfl
@[simp] theorem skipIf_mem (c : Bool) : (skipIf c s).mem = s.mem := by cases c <;> rfl
@[simp] theorem skipIf_display (c : Bool) : (skipIf c s).display = s.display := by cases c <;> rfl
@[simp] theorem skipIf_keys (c : Bool) : (skipIf c s).keys = s.keys := by cases c <;> rfl
@[simp] theorem skipIf_loadedCodeLength (c : Bool) : (skipIf c s).loadedCodeLength = s.loadedCodeLength := by cases c <;> rfl
@[simp] theorem skipIf_cycles (c : Bool) : (skipIf c s).cycles = s.cycles := by cases c <;> rfl
@[simp] theorem skipIf_draws (c : Bool) : (skipIf c s).draws = s.draws := by cases c <;> rfl
@[simp] theorem skipIf_script (c : Bool) : (skipIf c s).script = s.script := by cases c <;> rfl

/-! ### timerAdvance -/

@[simp] theorem timerAdvance_v (dt : Time) : (timerAdvance dt s).v = s.v := rfl
@[simp] theorem timerAdvance_index (dt : Time) : (timerAdvance dt s).index = s.index := rfl
@[simp] theorem timerAdvance_pc (dt : Time) : (timerAdvance dt s).pc = s.pc := rfl
@[simp] theorem timerAdvance_stack (dt : Time) : (timerAdvance dt s).stack = s.stack := rfl
@[simp] theorem timerAdvance_delayTimer (dt : Time) : (timerAdvance dt s).delayTimer = (quantize s.delayTimer s.delayAcc dt).1 := rfl
@[simp] theorem timerAdvance_soundTimer (dt : Time) : (timerAdvance dt s).soundTimer = (quantize s.soundTimer s.soundAcc dt).1 := rfl
@[simp] theorem timerAdvance_delayAcc (dt : Time) : (timerAdvance dt s).delayAcc = (quantize s.delayTimer s.delayAcc dt).2 := rfl
@[simp] theorem timerAdvance_soundAcc (dt : Time) : (timerAdvance dt s).soundAcc = (quantize s.soundTimer s.soundAcc dt).2 := rfl
@[simp] theorem timerAdvance_paused (dt : Time) : (timerAdvance dt s).paused = s.paused := rfl
@[simp] theorem timerAdvance_mem (dt : Time) : (timerAdvance dt s).mem = s.mem := rfl
@[simp] theorem timerAdvance_display (dt : Time) : (timerAdvance dt s).display = s.display := rfl
@[simp] theorem timerAdvance_keys (dt : Time) : (timerAdvance dt s).keys = s.keys := rfl
@[simp] theorem timerAdvance_loadedCodeLength (dt : Time) : (timerAdvance dt s).loadedCodeLength = s.loadedCodeLength := rfl
@[simp] theorem timerAdvance_cycles (dt : Time) : (timerAdvance dt s).cycles = s.cycles := rfl
@[simp] theorem timerAdvance_draws (dt : Time) : (timerAdvance dt s).draws = s.draws := rfl
@[simp] theorem timerAdvance_script (dt : Time) : (timerAdvance dt s).script = s.script := rfl

/-! ### The reset of load_rom -/

@[simp] theorem loadReset_v : (loadReset s).v = State.reset.v := rfl
@[simp] theorem loadReset_index : (loadReset s).index = State.reset.index := rfl
@[simp] theorem loadReset_pc : (loadReset s).pc = State.reset.pc := rfl
@[simp] theorem loadReset_stack : (loadReset s).stack = State.reset.stack := rfl
@[simp] theorem loadReset_delayTimer : (loadReset s).delayTimer = State.reset.delayTimer := rfl
@[simp] theorem loadReset_soundTimer : (loadReset s).soundTimer = State.reset.soundTimer := rfl
@[simp] theorem loadReset_delayAcc : (loadReset s).delayAcc = State.reset.delayAcc := rfl
@[simp] theorem loadReset_soundAcc : (loadReset s).soundAcc = State.reset.soundAcc := rfl
@[simp] theorem loadReset_paused : (loadReset s).paused = State.reset.paused := rfl
@[simp] theorem loadReset_mem : (loadReset s).mem = State.reset.mem := rfl
@[simp] theorem loadReset_display : (loadReset s).display = State.reset.display := rfl
@[simp] theorem loadReset_keys : (loadReset s).keys = s.keys := rfl
@[simp] theorem loadReset_loadedCodeLength : (loadReset s).loadedCodeLength = State.reset.loadedCodeLength := rfl
@[simp] theorem loadReset_cycles : (loadReset s).cycles = s.cycles := rfl
@[simp] theorem loadReset_draws : (loadReset s).draws = s.draws := rfl
@[simp] theorem loadReset_script : (loadReset s).script = s.script := rfl

end Sys2Proof.Machine
end

