-- ==== Sys2Proof/Laws/Compositor.lean ====
section
/-!
SUPPORT. The compositor: what one toggled pixel and one sprite bit do.
-/

namespace Sys2Proof.Machine

/-- Toggling inverts the one pixel and leaves every other alone. -/
theorem getPixel_togglePixel (d : Display) (cx cx' : Fin 64) (cy cy' : Fin 32) :
    getPixel (togglePixel d cx cy) cx' cy' = (if cx = cx' ∧ cy = cy' then !getPixel d cx' cy' else getPixel d cx' cy') := by
  simp only [getPixel, togglePixel, Vector.getElem_set, Fin.ext_iff]
  by_cases h : cx.val = cx'.val
  · by_cases h' : cy.val = cy'.val <;> simp [h, h']
  · simp [h]

@[simp] theorem togglePixel_dirty (d : Display) (cx : Fin 64) (cy : Fin 32) : (togglePixel d cx cy).dirty = true := rfl

/-- Two displays with the same pixels and the same dirty flag are the same. -/
theorem Display.ext_pixels {d e : Display} (hp : ∀ cx cy, getPixel d cx cy = getPixel e cx cy) (hd : d.dirty = e.dirty) :
    d = e := by
  obtain ⟨p, x⟩ := d
  obtain ⟨q, y⟩ := e
  obtain rfl : x = y := hd
  have : p = q := by
    ext i hi j hj
    exact hp ⟨i, hi⟩ ⟨j, hj⟩
  rw [this]

@[simp] theorem getPixel_clearDisplay (cx : Fin 64) (cy : Fin 32) : getPixel clearDisplay cx cy = false := by
  simp [getPixel, clearDisplay]

@[simp] theorem clearDisplay_dirty : clearDisplay.dirty = true := rfl

/-- One sprite bit of 1 inverts its pixel, records a collision where the pixel was set, and marks the display dirty. -/
theorem blitBit_one (ox y : Nat) (row : Byte) (b : Blit) (col : Nat) (h : spriteBit row col = true) :
    blitBit ox y row b col =
      { display := togglePixel b.display (wrapColumn (ox + col)) (wrapRow y),
        collision := b.collision || getPixel b.display (wrapColumn (ox + col)) (wrapRow y) } := by
  simp [blitBit, h, blitPixel]

/-- A sprite bit of 0 does nothing. -/
theorem blitBit_zero (ox y : Nat) (row : Byte) (b : Blit) (col : Nat) (h : spriteBit row col = false) :
    blitBit ox y row b col = b := by simp [blitBit, h]

@[simp] theorem wrapColumn_val (n : Nat) : (wrapColumn n).val = n % 64 := rfl

@[simp] theorem wrapRow_val (n : Nat) : (wrapRow n).val = n % 32 := rfl

end Sys2Proof.Machine
end

