-- ==== Sys2Proof/Laws/DecodeFields.lean ====
section
/-!
SUPPORT. The fields of the encoder's formats, and the masks of the opcode map as tests of nibbles.
-/

namespace Sys2Proof

/-! ### Fields of the formats -/

@[simp] theorem opField_formatA (o : BitVec 4) (a : BitVec 12) : opField (formatA o a) = o := by
  apply BitVec.eq_of_getLsbD_eq; intro i hi
  simp only [opField, formatA, BitVec.getLsbD_append, BitVec.getLsbD_extractLsb']
  grind

@[simp] theorem nnnField_formatA (o : BitVec 4) (a : BitVec 12) : nnnField (formatA o a) = a := by
  apply BitVec.eq_of_getLsbD_eq; intro i hi
  simp only [nnnField, formatA, BitVec.getLsbD_append, BitVec.getLsbD_extractLsb']
  grind

@[simp] theorem opField_formatXK (o : BitVec 4) (x : Reg) (k : Byte) : opField (formatXK o x k) = o :=
  opField_formatA o _

@[simp] theorem xField_formatXK (o : BitVec 4) (x : Reg) (k : Byte) : xField (formatXK o x k) = x := by
  have : (formatXK o x k).extractLsb' 8 4 = nibble x := by
    apply BitVec.eq_of_getLsbD_eq; intro i hi
    simp only [formatXK, BitVec.getLsbD_append, BitVec.getLsbD_extractLsb']
    grind
  simp only [xField, this]; rfl

@[simp] theorem kkField_formatXK (o : BitVec 4) (x : Reg) (k : Byte) : kkField (formatXK o x k) = k := by
  apply BitVec.eq_of_getLsbD_eq; intro i hi
  simp only [kkField, formatXK, BitVec.getLsbD_append, BitVec.getLsbD_extractLsb']
  grind

@[simp] theorem opField_formatXYN (o : BitVec 4) (x y : Reg) (n : Fin 16) : opField (formatXYN o x y n) = o :=
  opField_formatA o _

@[simp] theorem xField_formatXYN (o : BitVec 4) (x y : Reg) (n : Fin 16) : xField (formatXYN o x y n) = x :=
  xField_formatXK o x _

@[simp] theorem yField_formatXYN (o : BitVec 4) (x y : Reg) (n : Fin 16) : yField (formatXYN o x y n) = y := by
  have : (formatXYN o x y n).extractLsb' 4 4 = nibble y := by
    apply BitVec.eq_of_getLsbD_eq; intro i hi
    simp only [formatXYN, BitVec.getLsbD_append, BitVec.getLsbD_extractLsb']
    grind
  simp only [yField, this]; rfl

@[simp] theorem nField_formatXYN (o : BitVec 4) (x y : Reg) (n : Fin 16) : nField (formatXYN o x y n) = n := by
  have : (formatXYN o x y n).extractLsb' 0 4 = nibble n := by
    apply BitVec.eq_of_getLsbD_eq; intro i hi
    simp only [formatXYN, BitVec.getLsbD_append, BitVec.getLsbD_extractLsb']
    grind
  simp only [nField, this]; rfl

/-! ### A word from its fields -/

theorem formatA_fields (w : Word) : formatA (opField w) (nnnField w) = w := by
  apply BitVec.eq_of_getLsbD_eq; intro i hi
  simp only [formatA, opField, nnnField, BitVec.getLsbD_append, BitVec.getLsbD_extractLsb']
  grind

theorem formatXK_fields (w : Word) : formatXK (opField w) (xField w) (kkField w) = w := by
  apply BitVec.eq_of_getLsbD_eq; intro i hi
  have : nibble (xField w) = w.extractLsb' 8 4 := rfl
  simp only [formatXK, opField, this, kkField, BitVec.getLsbD_append, BitVec.getLsbD_extractLsb']
  grind

theorem formatXYN_fields (w : Word) : formatXYN (opField w) (xField w) (yField w) (nField w) = w := by
  apply BitVec.eq_of_getLsbD_eq; intro i hi
  have hx : nibble (xField w) = w.extractLsb' 8 4 := rfl
  have hy : nibble (yField w) = w.extractLsb' 4 4 := rfl
  have hn : nibble (nField w) = w.extractLsb' 0 4 := rfl
  simp only [formatXYN, opField, hx, hy, hn, BitVec.getLsbD_append, BitVec.getLsbD_extractLsb']
  grind

/-- The two bytes of a word, put together again (R51, R70). -/
@[simp] theorem bigEndian_bytes (w : Word) : bigEndian (highByte w) (lowByte w) = w := by
  apply BitVec.eq_of_getLsbD_eq; intro i hi
  simp only [bigEndian, highByte, lowByte, BitVec.getLsbD_append, BitVec.getLsbD_extractLsb']
  grind

/-! ### Masks as tests of fields -/

theorem and_F000 (w : Word) : w &&& 0xF000 = opField w ++ (0#12) := by
  apply BitVec.eq_of_getLsbD_eq; intro i hi
  simp only [opField, BitVec.getLsbD_append, BitVec.getLsbD_extractLsb', BitVec.getLsbD_and]
  interval_cases i <;> simp

theorem and_F00F (w : Word) : w &&& 0xF00F = formatXYN (opField w) 0 0 (nField w) := by
  apply BitVec.eq_of_getLsbD_eq; intro i hi
  simp only [formatXYN, opField, show nibble (nField w) = w.extractLsb' 0 4 from rfl, show nibble 0 = 0#4 from rfl,
    BitVec.getLsbD_append, BitVec.getLsbD_extractLsb', BitVec.getLsbD_and]
  interval_cases i <;> simp

theorem and_F0FF (w : Word) : w &&& 0xF0FF = opField w ++ ((0#4) ++ kkField w) := by
  apply BitVec.eq_of_getLsbD_eq; intro i hi
  simp only [opField, kkField, BitVec.getLsbD_append, BitVec.getLsbD_extractLsb', BitVec.getLsbD_and]
  interval_cases i <;> simp

theorem formatA_inj {o o' : BitVec 4} {a a' : BitVec 12} : formatA o a = formatA o' a' ↔ o = o' ∧ a = a' := by
  constructor
  · intro h
    exact ⟨by simpa using congrArg opField h, by simpa using congrArg nnnField h⟩
  · rintro ⟨rfl, rfl⟩; rfl

/-- A row hits a word exactly when the masked word is its match (R73). -/
theorem hits_iff (m p w : Word) : Row.hits ⟨m, p⟩ w = true ↔ w &&& m = p := beq_iff_eq

/-- A row with mask 0xF000 tests nibble 0. -/
theorem hits_F000 (w : Word) (o : BitVec 4) : Row.hits ⟨0xF000, formatA o 0⟩ w = decide (opField w = o) := by
  rw [Bool.eq_iff_iff, hits_iff, and_F000, decide_eq_true_eq]
  exact (formatA_inj (o := opField w) (a := 0#12) (a' := 0)).trans (and_iff_left rfl)

/-- A row with mask 0xF00F tests nibbles 0 and 3. -/
theorem hits_F00F (w : Word) (o : BitVec 4) (n : Fin 16) :
    Row.hits ⟨0xF00F, formatXYN o 0 0 n⟩ w = (decide (opField w = o) && decide (nField w = n)) := by
  rw [Bool.eq_iff_iff, hits_iff, and_F00F, Bool.and_eq_true, decide_eq_true_eq, decide_eq_true_eq]
  constructor
  · intro h
    exact ⟨by simpa using congrArg opField h, by simpa using congrArg nField h⟩
  · rintro ⟨h, h'⟩; rw [h, h']

/-- A row with mask 0xF0FF tests nibble 0 and the low byte. -/
theorem hits_F0FF (w : Word) (o : BitVec 4) (k : Byte) :
    Row.hits ⟨0xF0FF, formatXK o 0 k⟩ w = (decide (opField w = o) && decide (kkField w = k)) := by
  have e : w &&& 0xF0FF = formatXK (opField w) 0 (kkField w) := and_F0FF w
  rw [Bool.eq_iff_iff, hits_iff, e, Bool.and_eq_true, decide_eq_true_eq, decide_eq_true_eq]
  constructor
  · intro h
    exact ⟨by simpa using congrArg opField h, by simpa using congrArg kkField h⟩
  · rintro ⟨h, h'⟩; rw [h, h']

/-- A row with mask 0xFFFF tests the whole word. -/
theorem hits_FFFF (w p : Word) : Row.hits ⟨0xFFFF, p⟩ w = decide (w = p) := by
  have e : w &&& 0xFFFF = w := BitVec.and_allOnes
  rw [Bool.eq_iff_iff, hits_iff, e, decide_eq_true_eq]

theorem hits_F000_of (w : Word) (o : BitVec 4) (p : Word) (hp : formatA o 0 = p) :
    Row.hits ⟨0xF000, p⟩ w = decide (opField w = o) := hp ▸ hits_F000 w o

theorem hits_F00F_of (w : Word) (o : BitVec 4) (n : Fin 16) (p : Word) (hp : formatXYN o 0 0 n = p) :
    Row.hits ⟨0xF00F, p⟩ w = (decide (opField w = o) && decide (nField w = n)) := hp ▸ hits_F00F w o n

theorem hits_F0FF_of (w : Word) (o : BitVec 4) (k : Byte) (p : Word) (hp : formatXK o 0 k = p) :
    Row.hits ⟨0xF0FF, p⟩ w = (decide (opField w = o) && decide (kkField w = k)) := hp ▸ hits_F0FF w o k

/-- The rows 1 to 35 as tests of fields. -/
theorem any_hits_defined (w : Word) : (definedRows.any fun r => r.hits w) =
    (decide (w = 0x00E0) || decide (w = 0x00EE) || decide (opField w = 0x1) || decide (opField w = 0x2) ||
      decide (opField w = 0x3) || decide (opField w = 0x4) ||
      (decide (opField w = 0x5) && decide (nField w = 0x0)) || decide (opField w = 0x6) ||
      decide (opField w = 0x7) || (decide (opField w = 0x8) && decide (nField w = 0x0)) ||
      (decide (opField w = 0x8) && decide (nField w = 0x1)) ||
      (decide (opField w = 0x8) && decide (nField w = 0x2)) ||
      (decide (opField w = 0x8) && decide (nField w = 0x3)) ||
      (decide (opField w = 0x8) && decide (nField w = 0x4)) ||
      (decide (opField w = 0x8) && decide (nField w = 0x5)) ||
      (decide (opField w = 0x8) && decide (nField w = 0x6)) ||
      (decide (opField w = 0x8) && decide (nField w = 0x7)) ||
      (decide (opField w = 0x8) && decide (nField w = 0xe)) ||
      (decide (opField w = 0x9) && decide (nField w = 0x0)) || decide (opField w = 0xa) ||
      decide (opField w = 0xb) || decide (opField w = 0xc) || decide (opField w = 0xd) ||
      (decide (opField w = 0xe) && decide (kkField w = 0x9e)) ||
      (decide (opField w = 0xe) && decide (kkField w = 0xa1)) ||
      (decide (opField w = 0xf) && decide (kkField w = 0x7)) ||
      (decide (opField w = 0xf) && decide (kkField w = 0xa)) ||
      (decide (opField w = 0xf) && decide (kkField w = 0x15)) ||
      (decide (opField w = 0xf) && decide (kkField w = 0x18)) ||
      (decide (opField w = 0xf) && decide (kkField w = 0x1e)) ||
      (decide (opField w = 0xf) && decide (kkField w = 0x29)) ||
      (decide (opField w = 0xf) && decide (kkField w = 0x33)) ||
      (decide (opField w = 0xf) && decide (kkField w = 0x55)) ||
      (decide (opField w = 0xf) && decide (kkField w = 0x65)) || decide (opField w = 0x0)) := by
  simp only [definedRows, rowsTo9, rowsFromA, List.cons_append, List.nil_append, List.any_cons, List.any_nil,
    Bool.or_false, Bool.or_assoc]
  rw [hits_FFFF w 0x00E0, hits_FFFF w 0x00EE, hits_F000_of w 0x1 0x1000 rfl, hits_F000_of w 0x2 0x2000 rfl,
    hits_F000_of w 0x3 0x3000 rfl, hits_F000_of w 0x4 0x4000 rfl, hits_F00F_of w 0x5 0x0 0x5000 rfl,
    hits_F000_of w 0x6 0x6000 rfl, hits_F000_of w 0x7 0x7000 rfl, hits_F00F_of w 0x8 0x0 0x8000 rfl,
    hits_F00F_of w 0x8 0x1 0x8001 rfl, hits_F00F_of w 0x8 0x2 0x8002 rfl, hits_F00F_of w 0x8 0x3 0x8003 rfl,
    hits_F00F_of w 0x8 0x4 0x8004 rfl, hits_F00F_of w 0x8 0x5 0x8005 rfl, hits_F00F_of w 0x8 0x6 0x8006 rfl,
    hits_F00F_of w 0x8 0x7 0x8007 rfl, hits_F00F_of w 0x8 0xe 0x800E rfl, hits_F00F_of w 0x9 0x0 0x9000 rfl,
    hits_F000_of w 0xa 0xA000 rfl, hits_F000_of w 0xb 0xB000 rfl, hits_F000_of w 0xc 0xC000 rfl,
    hits_F000_of w 0xd 0xD000 rfl, hits_F0FF_of w 0xe 0x9e 0xE09E rfl, hits_F0FF_of w 0xe 0xa1 0xE0A1 rfl,
    hits_F0FF_of w 0xf 0x7 0xF007 rfl, hits_F0FF_of w 0xf 0xa 0xF00A rfl, hits_F0FF_of w 0xf 0x15 0xF015 rfl,
    hits_F0FF_of w 0xf 0x18 0xF018 rfl, hits_F0FF_of w 0xf 0x1e 0xF01E rfl, hits_F0FF_of w 0xf 0x29 0xF029 rfl,
    hits_F0FF_of w 0xf 0x33 0xF033 rfl, hits_F0FF_of w 0xf 0x55 0xF055 rfl, hits_F0FF_of w 0xf 0x65 0xF065 rfl,
    hits_F000_of w 0x0 0x0000 rfl]

end Sys2Proof
end

