-- ==== Sys2Proof/Laws/Memory.lean ====
section
/-!
SUPPORT. Memory: a store is read back, leaves every other byte alone, and keeps the canonical form.
-/

namespace Sys2Proof.Machine

/-! ### One byte -/

theorem readByte_consCell_other {a b : Nat} (v : Byte) (m : Memory) (h : b ≠ a) :
    readByte (consCell a v m) b = readByte m b := by
  unfold consCell; split <;> simp [readByte, h]

/-- A store changes exactly the addressed byte (R55). -/
theorem readByte_writeByte_other (m : Memory) {a b : Nat} (v : Byte) (h : b ≠ a) :
    readByte (writeByte m a v) b = readByte m b := by
  induction m with
  | nil => exact readByte_consCell_other v [] h
  | cons c rest ih =>
    obtain ⟨k, w⟩ := c
    simp only [writeByte]
    split
    · exact readByte_consCell_other v _ h
    · split
      · next hk => subst hk; rw [readByte_consCell_other v _ h]; simp [readByte, h]
      · simp [readByte, ih]

/-- An address below all that is listed reads as unlisted. -/
theorem readByte_below (m : Memory) {lo a : Nat} (hm : Memory.wfFrom lo m = true) (h : a < lo) :
    readByte m a = initialByte a := by
  induction m generalizing lo with
  | nil => rfl
  | cons c rest ih =>
    obtain ⟨k, w⟩ := c
    simp only [Memory.wfFrom, Bool.and_eq_true, decide_eq_true_eq] at hm
    have : a ≠ k := by omega
    simp only [readByte, this, if_false]
    exact ih hm.2 (by omega)

theorem readByte_consCell_same {a lo : Nat} (v : Byte) (m : Memory) (hm : Memory.wfFrom lo m = true) (h : a < lo) :
    readByte (consCell a v m) a = v := by
  unfold consCell; split
  · next hv => rw [readByte_below m hm h, hv]
  · simp [readByte]

theorem readByte_writeByte_same_from {lo : Nat} (m : Memory) (a : Nat) (v : Byte) (hm : Memory.wfFrom lo m = true) :
    readByte (writeByte m a v) a = v := by
  induction m generalizing lo with
  | nil => exact readByte_consCell_same (lo := a + 1) v [] rfl (by omega)
  | cons c rest ih =>
    obtain ⟨k, w⟩ := c
    have hm' := hm
    simp only [Memory.wfFrom, Bool.and_eq_true, decide_eq_true_eq] at hm
    simp only [writeByte]
    split
    · next h => exact readByte_consCell_same (lo := k) v _ (by simp [Memory.wfFrom, hm]) h
    · split
      · next h1 h2 => subst h2; exact readByte_consCell_same v _ hm.2 (by omega)
      · next h1 h2 => simp [readByte, h2, ih hm.2]

/-- A store is read back. -/
theorem readByte_writeByte_same (m : Memory) (a : Nat) (v : Byte) (hm : m.wf = true) :
    readByte (writeByte m a v) a = v := readByte_writeByte_same_from m a v hm

theorem wfFrom_mono {lo lo' : Nat} (m : Memory) (h : lo' ≤ lo) (hm : Memory.wfFrom lo m = true) :
    Memory.wfFrom lo' m = true := by
  cases m with
  | nil => rfl
  | cons c rest =>
    simp only [Memory.wfFrom, Bool.and_eq_true, decide_eq_true_eq] at hm ⊢
    exact ⟨⟨⟨by omega, hm.1.1.2⟩, hm.1.2⟩, hm.2⟩

theorem wfFrom_consCell {lo a : Nat} (v : Byte) (m : Memory) (hlo : lo ≤ a) (ha : a < 0x1000)
    (hm : Memory.wfFrom (a + 1) m = true) : Memory.wfFrom lo (consCell a v m) = true := by
  unfold consCell; split
  · exact wfFrom_mono m (by omega) hm
  · next hv => simp [Memory.wfFrom, hlo, ha, hv, hm]

theorem wfFrom_writeByte {lo : Nat} (m : Memory) (a : Nat) (v : Byte) (hlo : lo ≤ a) (ha : a < 0x1000)
    (hm : Memory.wfFrom lo m = true) : Memory.wfFrom lo (writeByte m a v) = true := by
  induction m generalizing lo with
  | nil => exact wfFrom_consCell v [] hlo ha rfl
  | cons c rest ih =>
    obtain ⟨k, w⟩ := c
    have hm' := hm
    simp only [Memory.wfFrom, Bool.and_eq_true, decide_eq_true_eq] at hm
    simp only [writeByte]
    split
    · next h =>
      refine wfFrom_consCell v _ hlo ha ?_
      simp only [Memory.wfFrom, Bool.and_eq_true, decide_eq_true_eq]
      exact ⟨⟨⟨by omega, hm.1.1.2⟩, hm.1.2⟩, hm.2⟩
    · split
      · next h1 h2 => subst h2; exact wfFrom_consCell v _ hlo ha hm.2
      · next h1 h2 =>
        simp only [Memory.wfFrom, Bool.and_eq_true, decide_eq_true_eq]
        exact ⟨⟨⟨hm.1.1.1, hm.1.1.2⟩, hm.1.2⟩, ih (by omega) hm.2⟩

/-- A store inside the address space keeps the canonical form. -/
theorem wf_writeByte (m : Memory) (a : Nat) (v : Byte) (ha : a < 0x1000) (hm : m.wf = true) :
    (writeByte m a v).wf = true := wfFrom_writeByte m a v (Nat.zero_le a) ha hm

/-! ### Blocks -/

/-- A block of stores inside the address space keeps the canonical form. -/
theorem wf_writeBlock (bytes : List Byte) (m : Memory) (base : Nat) (h : base + bytes.length ≤ 0x1000)
    (hm : m.wf = true) : (writeBlock m base bytes).wf = true := by
  induction bytes generalizing m base with
  | nil => exact hm
  | cons b rest ih =>
    simp only [List.length_cons] at h
    exact ih _ _ (by omega) (wf_writeByte m base b (by omega) hm)

/-- A block of stores leaves every byte outside the block alone. -/
theorem readByte_writeBlock_other (bytes : List Byte) (m : Memory) (base a : Nat)
    (h : a < base ∨ base + bytes.length ≤ a) : readByte (writeBlock m base bytes) a = readByte m a := by
  induction bytes generalizing m base with
  | nil => rfl
  | cons b rest ih =>
    simp only [List.length_cons] at h
    rw [writeBlock, ih _ _ (by omega), readByte_writeByte_other m b (by omega)]

/-- A block of stores is read back, each byte at its place. -/
theorem readByte_writeBlock_same (bytes : List Byte) (m : Memory) (base i : Nat) (b : Byte)
    (hb : bytes[i]? = some b) (hr : base + bytes.length ≤ 0x1000) (hm : m.wf = true) :
    readByte (writeBlock m base bytes) (base + i) = b := by
  induction bytes generalizing m base i with
  | nil => simp at hb
  | cons c rest ih =>
    simp only [List.length_cons] at hr
    have hw := wf_writeByte m base c (by omega) hm
    cases i with
    | zero =>
      have : c = b := by simpa using hb
      subst this
      rw [writeBlock, readByte_writeBlock_other rest _ _ _ (by omega)]
      exact readByte_writeByte_same m base c hm
    | succ j =>
      rw [writeBlock, show base + (j + 1) = base + 1 + j by omega]
      exact ih _ _ j (by simpa using hb) (by omega) hw

theorem readBlock_getElem? (m : Memory) (base len i : Nat) (h : i < len) :
    (readBlock m base len)[i]? = some (readByte m (base + i)) := by
  simp [readBlock, h]

@[simp] theorem readBlock_length (m : Memory) (base len : Nat) : (readBlock m base len).length = len := by
  simp [readBlock]

/-! ### The range check -/

theorem firstOutOfRange_eq (base len : Nat) :
    firstOutOfRange base len =
      if len = 0 ∨ base + len ≤ 0x1000 then none else some (max base 0x1000) := rfl

/-- The range check goes on exactly where every address exists. -/
theorem ifInRange_ok (base len : Nat) (k : Result) (h : len = 0 ∨ base + len ≤ 0x1000) :
    ifInRange base len k = k := by simp [ifInRange, firstOutOfRange_eq, h]

/-- Else it faults with the lowest address that does not exist. -/
theorem ifInRange_fault (base len : Nat) (k : Result) (h0 : len ≠ 0) (h : 0x1000 < base + len) :
    ifInRange base len k = .fault (.addressOutOfRange (max base 0x1000)) := by
  simp [ifInRange, firstOutOfRange_eq, h0, Nat.not_le.mpr h]

/-- If the range check answers a next state, it went on. -/
theorem ifInRange_next {base len : Nat} {k : Result} {t : State} (h : ifInRange base len k = .next t) :
    (len = 0 ∨ base + len ≤ 0x1000) ∧ k = .next t := by
  by_cases hc : len = 0 ∨ base + len ≤ 0x1000
  · exact ⟨hc, by rwa [ifInRange_ok base len k hc] at h⟩
  · simp [ifInRange, firstOutOfRange_eq, hc] at h

end Sys2Proof.Machine
end

