-- ==== Sys2Proof/Laws/PerInstr.lean ====
section
/-!
SUPPORT. Per instruction: its encoding lies in its own row of the opcode map (R74).
-/

namespace Sys2Proof.Laws.EncodeInRow

/-- The row of the opcode map an instruction belongs to matches its encoding (R73, R74). -/
def Statement (i : Instr) : Prop := i.row.hits (encode i) = true

theorem op00E0 : Statement .op00E0 :=
  rfl

theorem op00EE : Statement .op00EE :=
  rfl

theorem op1nnn (nnn : BitVec 12) : Statement (.op1nnn nnn) :=
  (hits_F000 (encode (.op1nnn nnn)) 0x1).trans (by simp [encode])

theorem op2nnn (nnn : BitVec 12) : Statement (.op2nnn nnn) :=
  (hits_F000 (encode (.op2nnn nnn)) 0x2).trans (by simp [encode])

theorem op3xkk (x : Reg) (kk : Byte) : Statement (.op3xkk x kk) :=
  (hits_F000 (encode (.op3xkk x kk)) 0x3).trans (by simp [encode])

theorem op4xkk (x : Reg) (kk : Byte) : Statement (.op4xkk x kk) :=
  (hits_F000 (encode (.op4xkk x kk)) 0x4).trans (by simp [encode])

theorem op5xy0 (x : Reg) (y : Reg) : Statement (.op5xy0 x y) :=
  (hits_F00F (encode (.op5xy0 x y)) 0x5 0x0).trans (by simp [encode])

theorem op6xkk (x : Reg) (kk : Byte) : Statement (.op6xkk x kk) :=
  (hits_F000 (encode (.op6xkk x kk)) 0x6).trans (by simp [encode])

theorem op7xkk (x : Reg) (kk : Byte) : Statement (.op7xkk x kk) :=
  (hits_F000 (encode (.op7xkk x kk)) 0x7).trans (by simp [encode])

theorem op8xy0 (x : Reg) (y : Reg) : Statement (.op8xy0 x y) :=
  (hits_F00F (encode (.op8xy0 x y)) 0x8 0x0).trans (by simp [encode])

theorem op8xy1 (x : Reg) (y : Reg) : Statement (.op8xy1 x y) :=
  (hits_F00F (encode (.op8xy1 x y)) 0x8 0x1).trans (by simp [encode])

theorem op8xy2 (x : Reg) (y : Reg) : Statement (.op8xy2 x y) :=
  (hits_F00F (encode (.op8xy2 x y)) 0x8 0x2).trans (by simp [encode])

theorem op8xy3 (x : Reg) (y : Reg) : Statement (.op8xy3 x y) :=
  (hits_F00F (encode (.op8xy3 x y)) 0x8 0x3).trans (by simp [encode])

theorem op8xy4 (x : Reg) (y : Reg) : Statement (.op8xy4 x y) :=
  (hits_F00F (encode (.op8xy4 x y)) 0x8 0x4).trans (by simp [encode])

theorem op8xy5 (x : Reg) (y : Reg) : Statement (.op8xy5 x y) :=
  (hits_F00F (encode (.op8xy5 x y)) 0x8 0x5).trans (by simp [encode])

theorem op8xy6 (x : Reg) (y : Reg) : Statement (.op8xy6 x y) :=
  (hits_F00F (encode (.op8xy6 x y)) 0x8 0x6).trans (by simp [encode])

theorem op8xy7 (x : Reg) (y : Reg) : Statement (.op8xy7 x y) :=
  (hits_F00F (encode (.op8xy7 x y)) 0x8 0x7).trans (by simp [encode])

theorem op8xyE (x : Reg) (y : Reg) : Statement (.op8xyE x y) :=
  (hits_F00F (encode (.op8xyE x y)) 0x8 0xE).trans (by simp [encode])

theorem op9xy0 (x : Reg) (y : Reg) : Statement (.op9xy0 x y) :=
  (hits_F00F (encode (.op9xy0 x y)) 0x9 0x0).trans (by simp [encode])

theorem opAnnn (nnn : BitVec 12) : Statement (.opAnnn nnn) :=
  (hits_F000 (encode (.opAnnn nnn)) 0xA).trans (by simp [encode])

theorem opBnnn (nnn : BitVec 12) : Statement (.opBnnn nnn) :=
  (hits_F000 (encode (.opBnnn nnn)) 0xB).trans (by simp [encode])

theorem opCxkk (x : Reg) (kk : Byte) : Statement (.opCxkk x kk) :=
  (hits_F000 (encode (.opCxkk x kk)) 0xC).trans (by simp [encode])

theorem opDxyn (x : Reg) (y : Reg) (n : Fin 16) : Statement (.opDxyn x y n) :=
  (hits_F000 (encode (.opDxyn x y n)) 0xD).trans (by simp [encode])

theorem opEx9E (x : Reg) : Statement (.opEx9E x) :=
  (hits_F0FF (encode (.opEx9E x)) 0xE 0x9E).trans (by simp [encode])

theorem opExA1 (x : Reg) : Statement (.opExA1 x) :=
  (hits_F0FF (encode (.opExA1 x)) 0xE 0xA1).trans (by simp [encode])

theorem opFx07 (x : Reg) : Statement (.opFx07 x) :=
  (hits_F0FF (encode (.opFx07 x)) 0xF 0x07).trans (by simp [encode])

theorem opFx0A (x : Reg) : Statement (.opFx0A x) :=
  (hits_F0FF (encode (.opFx0A x)) 0xF 0x0A).trans (by simp [encode])

theorem opFx15 (x : Reg) : Statement (.opFx15 x) :=
  (hits_F0FF (encode (.opFx15 x)) 0xF 0x15).trans (by simp [encode])

theorem opFx18 (x : Reg) : Statement (.opFx18 x) :=
  (hits_F0FF (encode (.opFx18 x)) 0xF 0x18).trans (by simp [encode])

theorem opFx1E (x : Reg) : Statement (.opFx1E x) :=
  (hits_F0FF (encode (.opFx1E x)) 0xF 0x1E).trans (by simp [encode])

theorem opFx29 (x : Reg) : Statement (.opFx29 x) :=
  (hits_F0FF (encode (.opFx29 x)) 0xF 0x29).trans (by simp [encode])

theorem opFx33 (x : Reg) : Statement (.opFx33 x) :=
  (hits_F0FF (encode (.opFx33 x)) 0xF 0x33).trans (by simp [encode])

theorem opFx55 (x : Reg) : Statement (.opFx55 x) :=
  (hits_F0FF (encode (.opFx55 x)) 0xF 0x55).trans (by simp [encode])

theorem opFx65 (x : Reg) : Statement (.opFx65 x) :=
  (hits_F0FF (encode (.opFx65 x)) 0xF 0x65).trans (by simp [encode])

theorem op0nnn (nnn : BitVec 12) : Statement (.op0nnn nnn) :=
  (hits_F000 (encode (.op0nnn nnn)) 0x0).trans (by simp [encode])

theorem undef (w : Word) : Statement (.undef w) :=
  (hits_iff _ _ w).mpr BitVec.and_zero

end Sys2Proof.Laws.EncodeInRow
end

