-- ==== Sys2Proof/Laws/Registers.lean ====
section
/-!
SUPPORT. What reading a register gives after each update.
-/

namespace Sys2Proof.Machine

theorem getV_setV (s : State) (r q : Reg) (b : Byte) : getV (setV s r b) q = if r = q then b else getV s q := by
  simp [getV, setV, Vector.getElem_set, Fin.ext_iff]

@[simp] theorem getV_setV_same (s : State) (r : Reg) (b : Byte) : getV (setV s r b) r = b := by simp [getV_setV]

theorem getV_setV_other (s : State) {r q : Reg} (b : Byte) (h : q ≠ r) : getV (setV s r b) q = getV s q := by
  simp [getV_setV, Ne.symm h]

theorem getV_setVF (s : State) (q : Reg) (b : Byte) : getV (setVF s b) q = if vf = q then b else getV s q :=
  getV_setV s vf q b

@[simp] theorem getV_setVF_same (s : State) (b : Byte) : getV (setVF s b) vf = b := getV_setV_same s vf b

@[simp] theorem getV_setPc (s : State) (w : Word) (q : Reg) : getV (setPc s w) q = getV s q := rfl

@[simp] theorem getV_setIndex (s : State) (w : Word) (q : Reg) : getV (setIndex s w) q = getV s q := rfl

@[simp] theorem getV_setMem (s : State) (m : Memory) (q : Reg) : getV (setMem s m) q = getV s q := rfl

@[simp] theorem getV_setStack (s : State) (l : List Word) (q : Reg) : getV (setStack s l) q = getV s q := rfl

@[simp] theorem getV_setDisplay (s : State) (d : Display) (q : Reg) : getV (setDisplay s d) q = getV s q := rfl

@[simp] theorem getV_setDelayTimer (s : State) (b : Byte) (q : Reg) : getV (setDelayTimer s b) q = getV s q := rfl

@[simp] theorem getV_setSoundTimer (s : State) (b : Byte) (q : Reg) : getV (setSoundTimer s b) q = getV s q := rfl

@[simp] theorem getV_countDraw (s : State) (q : Reg) : getV (countDraw s) q = getV s q := rfl

@[simp] theorem getV_skipIf (s : State) (c : Bool) (q : Reg) : getV (skipIf c s) q = getV s q := by cases c <;> rfl

/-- After Fx65 the registers up to `x` hold the block, the others are as before. -/
theorem getV_setRegisters_from (s : State) (base : Nat) (x q : Reg) :
    getV (setRegisters s (registersFrom s base x)) q =
      if q.val ≤ x.val then readByte s.mem (base + q.val) else getV s q := by
  simp [getV, registersFrom]

/-- The registers Fx55 stores: entry `i` is `V[i]`. -/
theorem registersUpTo_getElem? (s : State) (x : Reg) (i : Nat) (h : i ≤ x.val) :
    (registersUpTo s x)[i]? = some (getV s ⟨i, by omega⟩) := by
  have hx := x.isLt
  simp [registersUpTo, blockCount, getV, show i < x.val + 1 by omega]

@[simp] theorem registersUpTo_length (s : State) (x : Reg) : (registersUpTo s x).length = x.val + 1 := by
  have hx := x.isLt
  simp [registersUpTo, blockCount]

end Sys2Proof.Machine
end

