-- ==== Sys2Proof/Laws/Step.lean ====
section
/-!
SUPPORT. What each shared operation of the meanings and each move can answer, once.
-/

namespace Sys2Proof.Machine

/-- A key test goes on with the level of an existing key. -/
theorem withKey_ok (s : State) (k : Byte) (c : Bool → Result) (h : k.toNat < 16) :
    withKey s k c = c s.keys[k.toNat] := by simp [withKey, h]

/-- Else it faults with the number. -/
theorem withKey_fault (s : State) (k : Byte) (c : Bool → Result) (h : 16 ≤ k.toNat) :
    withKey s k c = .fault (.keyIndexOutOfRange k.toNat) := by simp [withKey, Nat.not_lt.mpr h]

/-- A call either pushes and jumps, or faults on a full stack. -/
theorem callWithLimit_cases (limit : Option Nat) (nnn : BitVec 12) (s : State) :
    callWithLimit limit nnn s =
      if stackFull limit s.stack.length then .fault .stackOverflow
      else .next { s with stack := s.pc :: s.stack, pc := zextAddr nnn } := rfl

@[simp] theorem stackFull_none (n : Nat) : stackFull none n = false := rfl

@[simp] theorem stackFull_some (l n : Nat) : stackFull (some l) n = decide (l ≤ n) := rfl

/-- The lowest pressed key is pressed and no lower one is. -/
theorem lowestPressed_some {s : State} {k : Nat} (h : lowestPressed s = some k) :
    ∃ hk : k < 16, s.keys[k] = true ∧ ∀ j (hj : j < k), s.keys[j]'(by omega) = false := by
  rw [lowestPressed, List.findIdx?_eq_some_iff_getElem] at h
  obtain ⟨hk, h1, h2⟩ := h
  refine ⟨by simpa using hk, by simpa using h1, fun j hj => by simpa using h2 j hj⟩

/-- No key is pressed where there is no lowest one. -/
theorem lowestPressed_none {s : State} (h : lowestPressed s = none) : ∀ k (hk : k < 16), s.keys[k] = false := by
  rw [lowestPressed, List.findIdx?_eq_none_iff] at h
  intro k hk
  simpa using h s.keys[k] (by simp)

/-- The core's cycle: nothing while paused, else timers, fetch, pre-increment, dispatch (R91). -/
theorem executeCycle_cases (dt : Time) (s : State) :
    executeCycle dt s = if s.paused then .next s else fetchAndExecute (timerAdvance dt (countCycle s)) := rfl

/-- The fetch either fails on the range or executes the decoded word (R51, R53). -/
theorem fetchAndExecute_ok (s : State) (h : s.pc.toNat + 2 ≤ 0x1000) :
    fetchAndExecute s = exec (decodeWord (fetchWord s)) (setPc s (s.pc + 2)) := ifInRange_ok _ _ _ (.inr h)

theorem fetchAndExecute_fault (s : State) (h : 0x1000 < s.pc.toNat + 2) :
    fetchAndExecute s = .fault (.addressOutOfRange (max s.pc.toNat 0x1000)) := ifInRange_fault _ _ _ (by decide) h

/-- The state at a fault of the fetch, and of an instruction (R182). -/
theorem stateAtFault_fetch (dt : Time) (s : State) (h : 0x1000 < s.pc.toNat + 2) :
    stateAtFault dt s = timerAdvance dt (countCycle s) := by
  simp only [stateAtFault, timerAdvance_pc, countCycle_pc, firstOutOfRange_eq]
  rw [if_neg (by omega)]

theorem stateAtFault_dispatch (dt : Time) (s : State) (h : s.pc.toNat + 2 ≤ 0x1000) :
    stateAtFault dt s = setPc (timerAdvance dt (countCycle s)) (s.pc + 2) := by
  simp only [stateAtFault, timerAdvance_pc, countCycle_pc, firstOutOfRange_eq]
  rw [if_pos (by omega)]

/-- A successful load (R211). -/
theorem loadRom_ok (bytes : List Byte) (s : State) (h : bytes.length ≤ 3584) :
    loadRom bytes s = (.ok, { loadReset s with mem := writeBlock [] 0x200 bytes, loadedCodeLength := bytes.length,
                                               paused := false }) := by
  simp only [loadRom, Config.maxProgramBytes, h, if_true]; rfl

/-- A load of too many bytes (R213). -/
theorem loadRom_tooLarge (bytes : List Byte) (s : State) (h : 3584 < bytes.length) :
    loadRom bytes s = (.romTooLarge, loadReset s) := by
  simp only [loadRom, Config.maxProgramBytes, Nat.not_le.mpr h, if_false]

/-- The next move with no host move listed. -/
theorem step_cycle (s : State) (h : s.script = []) : step s = executeCycle (Config.elapsedTime s.cycles) s := by
  simp [step, nextMove, h]

/-- The next move with a host move listed. -/
theorem step_move (s : State) (m : HostMove) (rest : List HostMove) (h : s.script = m :: rest) :
    step s = hostMove m (setScript s rest) := by simp [step, nextMove, h]

end Sys2Proof.Machine
end

