-- ==== Sys2Proof/Laws/Timers.lean ====
section
/-!
SUPPORT. The quantizer: its time arithmetic on rationals, one turn of its loop, and that it is given turns enough.
-/

namespace Sys2Proof.Machine

@[simp] theorem tick_val : tick.val = 1 / 60 := rfl

@[simp] theorem addTime_val (a b : Time) : (addTime a b).val = a.val + b.val := rfl

theorem subTime_val (a b : Time) (h : b.val ≤ a.val) : (subTime a b).val = a.val - b.val := by simp [subTime, h]

theorem exceedsTick_iff (a : Time) : exceedsTick a = true ↔ 1 / 60 < a.val := by simp [exceedsTick]

theorem countDown_toNat (t : Byte) : (countDown t).toNat = t.toNat - 1 := by
  unfold countDown; split
  · next h => simp [h]
  · next h =>
    have : t.toNat ≠ 0 := fun h' => h (BitVec.eq_of_toNat_eq (by simpa using h'))
    rw [BitVec.toNat_sub]; have := t.isLt; simp; omega

/-- The loop of R191 ends where its test fails. -/
theorem drain_stop (n : Nat) (t : Byte) (acc : Time) (h : acc.val ≤ 1 / 60) : drain n t acc = (t, acc) := by
  cases n with
  | zero => rfl
  | succ n => simp [drain, Bool.eq_false_iff.mpr (mt (exceedsTick_iff acc).mp (not_lt.mpr h))]

/-- One turn of the loop of R191. -/
theorem drain_turn (n : Nat) (t : Byte) (acc : Time) (h : 1 / 60 < acc.val) :
    drain (n + 1) t acc = drain n (countDown t) (subTime acc tick) := by
  simp [drain, (exceedsTick_iff acc).mpr h]

/-- There are turns enough: more than the ticks in the accumulator. -/
theorem turnsFor_enough (acc : Time) : 60 * acc.val < turnsFor acc := by
  obtain ⟨q, hq⟩ := acc
  have hn : (0 : Int) ≤ q.num := Rat.num_nonneg.mpr hq
  have hd : (0 : Rat) < q.den := by exact_mod_cast q.den_pos
  have hnum : ((q.num.toNat : Nat) : Rat) = q.num := by exact_mod_cast Int.toNat_of_nonneg hn
  have hlt : 60 * q.num.toNat < (60 * q.num.toNat / q.den + 1) * q.den := by
    have := Nat.lt_div_mul_add (a := 60 * q.num.toNat) q.den_pos
    rw [Nat.add_mul, Nat.one_mul]; omega
  have hlt' : (60 : Rat) * q.num < ((60 * q.num.toNat / q.den + 1 : Nat) : Rat) * q.den := by
    rw [← hnum]; exact_mod_cast hlt
  have hq' : q = q.num / q.den := (Rat.num_div_den q).symm
  show 60 * q < ((60 * q.num.toNat / q.den + 1 : Nat) : Rat)
  rw [hq', ← mul_div_assoc, div_lt_iff₀ hd, ← hq']
  exact hlt'

/-- A timer at 0 keeps its accumulator; time is not added (R191). -/
theorem quantize_zero (acc dt : Time) : quantize 0 acc dt = (0, acc) := rfl

/-- A running timer drains the accumulator after the time is added (R191). -/
theorem quantize_running (t : Byte) (acc dt : Time) (h : t ≠ 0) :
    quantize t acc dt = drain (turnsFor (addTime acc dt)) t (addTime acc dt) := if_neg h

end Sys2Proof.Machine
end

