-- ==== Sys2Proof/Tests/Slice0.lean ====
section
/-!
SUPPORT. The model's own tests. Expected values are those of the vectors of 95_test_vectors.md (named T-..., S...) or
written out by hand from the rule cited; the last part shows, for each statement with hypotheses, values that meet them.
-/

open Sys2Proof Sys2Proof.Machine

namespace Sys2Proof.Tests

/-! ### Small states and one step -/

/-- What `f` sees in the next state, if there is one. -/
def look {α : Type} (f : State → α) : Result → Option α
  | .next t => some (f t)
  | .fault _ => none
  | .refused _ => none

/-- The fault, if the operation ends in one. -/
def faultOf : Result → Option Fault
  | .next _ => none
  | .fault f => some f
  | .refused _ => none

/-- One step on the word `w`, placed at `pc`. -/
def run (w : Nat) (s : State) : Result := step (s.withFetchWord 16 w)

/-- `s` with the listed registers set. -/
def regs (l : List (Reg × Byte)) (s : State) : State := l.foldl (fun u p => setV u p.1 p.2) s

/-- `s` with the listed keys pressed. -/
def held (l : List KeyNum) (s : State) : State := l.foldl (fun u k => setKey u k true) s

/-- `s` with bytes stored from `base` on. -/
def bytesAt (base : Nat) (l : List Byte) (s : State) : State := setMem s (writeBlock s.mem base l)

/-- `s` with the dirty flag acknowledged and the listed pixels set. -/
def pixels (l : List (Fin 64 × Fin 32)) (s : State) : State :=
  setDisplay s { l.foldl (fun d p => togglePixel d p.1 p.2) s.display with dirty := false }

/-- Whether each of the listed pixels is set. -/
def shown (l : List (Fin 64 × Fin 32)) (s : State) : List Bool := l.map fun p => getPixel s.display p.1 p.2

/-- The machine after construction, running. -/
def awake : State := setPaused State.reset false

/-- A time from a fraction. -/
def secs (n d : Nat) : Time := ⟨(n : Rat) / (d : Rat), div_nonneg (Nat.cast_nonneg n) (Nat.cast_nonneg d)⟩

/-! ### Well-formedness: each check refuses an ill-formed term -/

theorem test_wf_0nnn_is_not_00E0 : (Instr.op0nnn 0x0E0).wf = false := by decide
theorem test_wf_0nnn_is_not_00EE : (Instr.op0nnn 0x0EE).wf = false := by decide
theorem test_wf_undef_is_no_defined_word : (Instr.undef 0x8124).wf = false := by decide
theorem test_wf_undef_is_no_0nnn : (Instr.undef 0x0123).wf = false := by decide
theorem test_wf_accepts : (Instr.op0nnn 0x0E1).wf = true ∧ (Instr.undef 0x8AB8).wf = true := by decide
theorem test_memory_wf_refuses_order : Memory.wf [(0x301, 1), (0x300, 1)] = false := by decide
theorem test_memory_wf_refuses_repeats : Memory.wf [(0x300, 1), (0x300, 2)] = false := by decide
theorem test_memory_wf_refuses_reset_contents :
    Memory.wf [(0x300, 0x00)] = false ∧ Memory.wf [(0x050, 0xF0)] = false := by decide
theorem test_memory_wf_refuses_addresses_outside : Memory.wf [(0x1000, 1)] = false := by decide

/-! ### Decoding: words written out nibble by nibble from the formats and the map (R71, R74; T-DEC) -/

/-- Four nibbles, the first one high (R7). -/
def nibbles (a b c d : BitVec 4) : Word := a ++ (b ++ (c ++ d))

theorem test_decode_00E0 : decodeWord (nibbles 0b0000 0b0000 0b1110 0b0000) = .op00E0 := by decide
theorem test_decode_00EE : decodeWord (nibbles 0b0000 0b0000 0b1110 0b1110) = .op00EE := by decide
theorem test_decode_1nnn : decodeWord (nibbles 0b0001 0b0010 0b0011 0b0100) = .op1nnn 0x234 := by decide
theorem test_decode_2nnn : decodeWord (nibbles 0b0010 0b1111 0b0000 0b0001) = .op2nnn 0xF01 := by decide
theorem test_decode_3xkk : decodeWord (nibbles 0b0011 0b1010 0b0100 0b0010) = .op3xkk 10 0x42 := by decide
theorem test_decode_4xkk : decodeWord (nibbles 0b0100 0b1011 0b1000 0b0001) = .op4xkk 11 0x81 := by decide
theorem test_decode_5xy0 : decodeWord (nibbles 0b0101 0b1010 0b1011 0b0000) = .op5xy0 10 11 := by decide
theorem test_decode_6xkk : decodeWord (nibbles 0b0110 0b1111 0b0000 0b0111) = .op6xkk 15 0x07 := by decide
theorem test_decode_7xkk : decodeWord (nibbles 0b0111 0b1100 0b1000 0b0001) = .op7xkk 12 0x81 := by decide
theorem test_decode_8xy0 : decodeWord (nibbles 0b1000 0b1010 0b1011 0b0000) = .op8xy0 10 11 := by decide
theorem test_decode_8xy1 : decodeWord (nibbles 0b1000 0b1010 0b1011 0b0001) = .op8xy1 10 11 := by decide
theorem test_decode_8xy2 : decodeWord (nibbles 0b1000 0b1010 0b1011 0b0010) = .op8xy2 10 11 := by decide
theorem test_decode_8xy3 : decodeWord (nibbles 0b1000 0b1010 0b1011 0b0011) = .op8xy3 10 11 := by decide
theorem test_decode_8xy4 : decodeWord (nibbles 0b1000 0b1010 0b1011 0b0100) = .op8xy4 10 11 := by decide
theorem test_decode_8xy5 : decodeWord (nibbles 0b1000 0b1010 0b1011 0b0101) = .op8xy5 10 11 := by decide
theorem test_decode_8xy6 : decodeWord (nibbles 0b1000 0b1010 0b1011 0b0110) = .op8xy6 10 11 := by decide
theorem test_decode_8xy7 : decodeWord (nibbles 0b1000 0b1010 0b1011 0b0111) = .op8xy7 10 11 := by decide
theorem test_decode_8xyE : decodeWord (nibbles 0b1000 0b1010 0b1011 0b1110) = .op8xyE 10 11 := by decide
theorem test_decode_9xy0 : decodeWord (nibbles 0b1001 0b0001 0b0010 0b0000) = .op9xy0 1 2 := by decide
theorem test_decode_Annn : decodeWord (nibbles 0b1010 0b0011 0b0000 0b0001) = .opAnnn 0x301 := by decide
theorem test_decode_Bnnn : decodeWord (nibbles 0b1011 0b1010 0b1011 0b1100) = .opBnnn 0xABC := by decide
theorem test_decode_Cxkk : decodeWord (nibbles 0b1100 0b0001 0b1111 0b0000) = .opCxkk 1 0xF0 := by decide
theorem test_decode_Dxyn : decodeWord (nibbles 0b1101 0b0001 0b0010 0b0011) = .opDxyn 1 2 3 := by decide
theorem test_decode_Ex9E : decodeWord (nibbles 0b1110 0b0001 0b1001 0b1110) = .opEx9E 1 := by decide
theorem test_decode_ExA1 : decodeWord (nibbles 0b1110 0b0001 0b1010 0b0001) = .opExA1 1 := by decide
theorem test_decode_Fx07 : decodeWord (nibbles 0b1111 0b0001 0b0000 0b0111) = .opFx07 1 := by decide
theorem test_decode_Fx0A : decodeWord (nibbles 0b1111 0b0001 0b0000 0b1010) = .opFx0A 1 := by decide
theorem test_decode_Fx15 : decodeWord (nibbles 0b1111 0b0001 0b0001 0b0101) = .opFx15 1 := by decide
theorem test_decode_Fx18 : decodeWord (nibbles 0b1111 0b0001 0b0001 0b1000) = .opFx18 1 := by decide
theorem test_decode_Fx1E : decodeWord (nibbles 0b1111 0b0001 0b0001 0b1110) = .opFx1E 1 := by decide
theorem test_decode_Fx29 : decodeWord (nibbles 0b1111 0b0001 0b0010 0b1001) = .opFx29 1 := by decide
theorem test_decode_Fx33 : decodeWord (nibbles 0b1111 0b0001 0b0011 0b0011) = .opFx33 1 := by decide
theorem test_decode_Fx55 : decodeWord (nibbles 0b1111 0b0001 0b0101 0b0101) = .opFx55 1 := by decide
theorem test_decode_Fx65 : decodeWord (nibbles 0b1111 0b0001 0b0110 0b0101) = .opFx65 1 := by decide
theorem test_decode_0nnn : decodeWord (nibbles 0b0000 0b1110 0b1110 0b0000) = .op0nnn 0xEE0 := by decide
theorem test_decode_undef : decodeWord (nibbles 0b1000 0b1010 0b1011 0b1000) = .undef 0x8AB8 := by decide

/-- T-DEC-5, T-DEC-6, T-DEC-10, T-DEC-12: words that no defined row takes. -/
theorem test_decode_undefined_neighbours :
    [0x5AB1, 0x5ABF, 0x8ABF, 0x9121, 0xE19F, 0xE1A0, 0xF100, 0xF108, 0xF175, 0xF1FF].all
      (fun w : Word => decide (decodeWord w = .undef w)) = true := by decide

/-- T-DEC-3: words next to 00E0 and 00EE are 0nnn. -/
theorem test_decode_0nnn_neighbours :
    [0x0E1, 0x0EF, 0x0FE, 0x000, 0xFFF].all
      (fun a : BitVec 12 => decide (decodeWord (formatA 0 a) = .op0nnn a)) = true := by decide

/-- T-DEC-15: the byte at the lower address is the high byte. -/
theorem test_decode_bytes : decode [0x12, 0x34, 0x56] = .ok (.op1nnn 0x234, [0x56]) := by decide
theorem test_decode_refuses_one_byte : decode [0x12] = .error .truncated := by decide
theorem test_encode_bytes : encodeBytes (.opDxyn 1 2 3) = [0xD1, 0x23] := by decide
theorem test_table_word : decodeTableWord 16 0xD123 = some (.opDxyn 1 2 3) := by decide

/-! ### One step per instruction: control transfer (T-FLOW) -/

theorem test_return_pops_the_top : -- T-FLOW-5
    look (fun t => (t.pc, t.stack)) (run 0x00EE (setStack (setPc awake 0x300) [0x20A, 0x206]))
      = some (0x20A, [0x206]) := by decide
theorem test_return_on_empty_stack : -- T-FLOW-4
    look (fun t => (t.pc, t.stack)) (run 0x00EE (setPc awake 0x20C)) = some (0x20E, []) := by decide
theorem test_jump_to_the_top : look (fun t => t.pc) (run 0x1FFF awake) = some 0xFFF := by decide -- T-FLOW-8
theorem test_call_pushes_the_next_address : -- T-FLOW-11
    look (fun t => (t.pc, t.stack)) (run 0x2204 (setStack (setPc awake 0x204) [0x202]))
      = some (0x204, [0x206, 0x202]) := by decide
theorem test_call_under_a_limit : -- T-FLOW-36, with a limit of 1 entry
    faultOf (callWithLimit (some 1) 0x300 (setStack awake [0x206])) = some .stackOverflow := by decide
theorem test_skip_equal_byte : -- T-FLOW-31: the skip lands past memory, without a fault
    look (fun t => t.pc) (run 0x3A42 (regs [(10, 0x42)] (setPc awake 0xFFC))) = some 0x1000 := by decide
theorem test_no_skip_different_byte : -- T-FLOW-13
    look (fun t => t.pc) (run 0x3A42 (regs [(10, 0x43)] awake)) = some 0x202 := by decide
theorem test_no_skip_equal_byte_4 : -- T-FLOW-14
    look (fun t => t.pc) (run 0x4A42 (regs [(10, 0x42)] awake)) = some 0x202 := by decide
theorem test_skip_different_byte_4 : -- T-FLOW-15
    look (fun t => t.pc) (run 0x4A42 (regs [(10, 0x43)] awake)) = some 0x204 := by decide
theorem test_skip_equal_registers : -- T-FLOW-16
    look (fun t => t.pc) (run 0x5120 (regs [(1, 7), (2, 7)] awake)) = some 0x204 := by decide
theorem test_no_skip_different_registers : -- T-FLOW-17
    look (fun t => t.pc) (run 0x5120 (regs [(1, 7), (2, 8)] awake)) = some 0x202 := by decide
theorem test_skip_different_registers_9 : -- T-FLOW-19
    look (fun t => t.pc) (run 0x9120 (regs [(1, 7), (2, 8)] awake)) = some 0x204 := by decide
theorem test_no_skip_same_register_9 : -- T-FLOW-21
    look (fun t => t.pc) (run 0x9FF0 (regs [(15, 9)] awake)) = some 0x202 := by decide
theorem test_jump_with_offset_passes_12_bits : -- T-FLOW-23
    look (fun t => t.pc) (run 0xBFFF (regs [(0, 0xFF)] awake)) = some 0x10FE := by decide
theorem test_zero_word_is_a_no_op : -- T-FLOW-2
    look (fun t => t) (run 0x0000 awake) = some { awake with pc := 0x202, cycles := 1 } := by decide
theorem test_undefined_word_is_a_no_op : -- T-FLOW-27
    look (fun t => (t.pc, getV t 1, getV t 2, getV t 15)) (run 0x8128 (regs [(1, 7), (2, 8), (15, 5)] awake))
      = some (0x202, 7, 8, 5) := by decide

/-! ### Load, arithmetic, logic, shift, random (T-ALU) -/

theorem test_load_byte_into_VF : look (fun t => getV t 15) (run 0x6F07 awake) = some 0x07 := by decide -- T-ALU-2
theorem test_add_byte_wraps_without_carry : -- T-ALU-5
    look (fun t => (getV t 1, getV t 15)) (run 0x7105 (regs [(1, 0xFE), (15, 7)] awake)) = some (0x03, 7) := by decide
theorem test_add_byte_to_VF : -- T-ALU-7
    look (fun t => getV t 15) (run 0x7FFF (regs [(15, 1)] awake)) = some 0x00 := by decide
theorem test_copy_into_VF : -- T-ALU-9
    look (fun t => getV t 15) (run 0x8F10 (regs [(1, 0x3C)] awake)) = some 0x3C := by decide
theorem test_or : -- T-ALU-10
    look (fun t => (getV t 0, getV t 15)) (run 0x8011 (regs [(0, 0xF0), (1, 0x0F), (15, 1)] awake))
      = some (0xFF, 1) := by decide
theorem test_and : -- T-ALU-12
    look (fun t => (getV t 0, getV t 1, getV t 15)) (run 0x8012 (regs [(0, 0xF3), (1, 0x3C), (15, 1)] awake))
      = some (0x30, 0x3C, 1) := by decide
theorem test_xor : -- T-ALU-14
    look (fun t => (getV t 0, getV t 15)) (run 0x8013 (regs [(0, 0xFF), (1, 0x0F), (15, 1)] awake))
      = some (0xF0, 1) := by decide
theorem test_add_255_has_no_carry : -- T-ALU-17
    look (fun t => (getV t 0, getV t 15)) (run 0x8014 (regs [(0, 0x80), (1, 0x7F), (15, 1)] awake))
      = some (0xFF, 0) := by decide
theorem test_add_into_VF_leaves_the_carry : -- T-ALU-21
    look (fun t => getV t 15) (run 0x8F14 (regs [(15, 0xFF), (1, 1)] awake)) = some 1 := by decide
theorem test_sub_equal_has_no_borrow : -- T-ALU-28
    look (fun t => (getV t 0, getV t 15)) (run 0x8015 (regs [(0, 7), (1, 7)] awake)) = some (0, 1) := by decide
theorem test_sub_wraps : -- T-ALU-31
    look (fun t => (getV t 0, getV t 15)) (run 0x8015 (regs [(0, 0), (1, 0xFF)] awake)) = some (1, 0) := by decide
theorem test_shift_right_ignores_y : -- T-ALU-36
    look (fun t => (getV t 0, getV t 1, getV t 15)) (run 0x8016 (regs [(0, 4), (1, 0xFF)] awake))
      = some (2, 0xFF, 0) := by decide
theorem test_shift_right_of_VF : -- T-ALU-40
    look (fun t => getV t 15) (run 0x8F06 (regs [(15, 0xFF)] awake)) = some 0 := by decide
theorem test_reverse_sub_borrows : -- T-ALU-42
    look (fun t => (getV t 0, getV t 15)) (run 0x8017 (regs [(0, 2), (1, 1)] awake)) = some (0xFF, 0) := by decide
theorem test_reverse_sub_into_VF : -- T-ALU-47
    look (fun t => getV t 15) (run 0x8F17 (regs [(15, 3), (1, 5)] awake)) = some 1 := by decide
theorem test_shift_left_is_no_rotate : -- T-ALU-51
    look (fun t => (getV t 0, getV t 15)) (run 0x800E (regs [(0, 0xFF)] awake)) = some (0xFE, 1) := by decide
theorem test_shift_left_of_VF : -- T-ALU-53
    look (fun t => getV t 15) (run 0x8F0E (regs [(15, 0x80)] awake)) = some 2 := by decide
theorem test_random_with_mask_zero : -- T-ALU-57: for every draw
    look (fun t => (getV t 0, t.draws)) (exec (.opCxkk 0 0) (regs [(0, 0x55)] awake)) = some (0, 1) := by
  have h : ∀ b : Byte, b &&& 0x00 = 0x00 := by decide
  show some (getV (setV _ 0 (Config.randomByte 0 &&& 0x00)) 0, 1) = _
  rw [h]; decide

/-! ### Index and memory (T-MEM) -/

theorem test_load_index : look (fun t => t.index) (run 0xAFFF awake) = some 0x0FFF := by decide -- T-MEM-2
theorem test_add_to_index_wraps : -- T-MEM-5
    look (fun t => t.index) (run 0xF01E (regs [(0, 1)] (setIndex awake 0xFFFF))) = some 0 := by decide
theorem test_add_to_index_writes_no_flag : -- T-MEM-7
    look (fun t => (t.index, getV t 15)) (run 0xFF1E (regs [(15, 1)] (setIndex awake 0x100)))
      = some (0x101, 1) := by decide
theorem test_glyph_index_takes_the_whole_byte : -- T-MEM-12
    look (fun t => t.index) (run 0xF329 (regs [(3, 0xFF)] awake)) = some 0x04FB := by decide
theorem test_bcd : -- T-MEM-20
    look (fun t => (readBlock t.mem 0x300 4, t.index))
      (run 0xF033 (regs [(0, 254)] (bytesAt 0x300 [0xAA, 0xAA, 0xAA, 0xAA] (setIndex awake 0x300))))
      = some ([2, 5, 4, 0xAA], 0x300) := by decide
theorem test_bcd_past_the_top : -- T-MEM-23
    faultOf (run 0xF033 (regs [(0, 123)] (setIndex awake 0xFFE))) = some (.addressOutOfRange 0x1000) := by decide
theorem test_store_registers : -- T-MEM-26
    look (fun t => (readBlock t.mem 0x400 3, t.index))
      (run 0xF155 (regs [(0, 0x11), (1, 0x22), (2, 0x33)] (setIndex awake 0x400)))
      = some ([0x11, 0x22, 0x00], 0x402) := by decide
theorem test_store_registers_from_the_end : -- T-MEM-37
    faultOf (run 0xF055 (regs [(0, 1)] (setIndex awake 0xFFFF))) = some (.addressOutOfRange 0xFFFF) := by decide
theorem test_load_registers : -- T-MEM-32
    look (fun t => ([getV t 0, getV t 1, getV t 2, getV t 3], t.index))
      (run 0xF265 (regs [(3, 0x77)] (bytesAt 0x300 [2, 5, 4, 9] (setIndex awake 0x300))))
      = some ([2, 5, 4, 0x77], 0x303) := by decide
theorem test_load_registers_from_the_font : -- T-MEM-31, the first three bytes
    look (fun t => [getV t 0, getV t 1, getV t 2]) (run 0xF265 (setIndex awake 0x050))
      = some [0xF0, 0x90, 0x90] := by decide

/-! ### Display (T-DRW) -/

theorem test_clear : -- T-DRW-18
    look (fun t => (shown [(0, 0), (63, 31)] t, t.display.dirty)) (run 0x00E0 (pixels [(0, 0), (63, 31)] awake))
      = some ([false, false], true) := by decide
theorem test_draw_wraps : -- T-DRW-4, the pixels set and four beside them
    look (fun t => (shown [(62, 31), (63, 31), (62, 0), (5, 0), (0, 31), (61, 31), (63, 0), (0, 0)] t, getV t 15))
      (run 0xD012 (regs [(0, 62), (1, 31)] (bytesAt 0x300 [0xC0, 0x81] (setIndex (pixels [] awake) 0x300))))
      = some ([true, true, true, true, false, false, false, false], 0) := by decide
theorem test_draw_collides_with_VF_as_row : -- T-DRW-12
    look (fun t => (shown [(3, 2), (4, 2), (3, 1)] t, getV t 15))
      (run 0xD0F1 (regs [(0, 3), (15, 2)] (bytesAt 0x300 [0x80] (setIndex (pixels [(3, 2)] awake) 0x300))))
      = some ([false, false, false], 1) := by decide

/-! ### Keys and timers (T-KEY, T-TMR) -/

theorem test_skip_on_key_by_value : -- T-KEY-8
    look (fun t => t.pc) (run 0xE49E (regs [(4, 15)] (held [15] (setPc awake 0x210)))) = some 0x214 := by decide
theorem test_key_number_is_not_masked : -- T-KEY-5
    faultOf (run 0xE49E (regs [(4, 0x10)] (held [0] awake))) = some (.keyIndexOutOfRange 16) := by decide
theorem test_skip_on_key_released : -- T-KEY-3
    look (fun t => t.pc) (run 0xE4A1 (regs [(4, 5)] (setPc awake 0x210))) = some 0x214 := by decide
theorem test_no_skip_on_key_pressed : -- T-KEY-4
    look (fun t => t.pc) (run 0xE4A1 (regs [(4, 5)] (held [5] (setPc awake 0x210)))) = some 0x212 := by decide
theorem test_wait_without_key : -- T-KEY-14
    look (fun t => (t.pc, getV t 2)) (run 0xF20A (regs [(2, 0x99)] (setPc awake 0x20A))) = some (0x20A, 0x99) := by decide
theorem test_wait_takes_the_lowest : -- T-KEY-11
    look (fun t => (t.pc, getV t 2)) (run 0xF20A (held [11, 7] (setPc awake 0x20A))) = some (0x20C, 7) := by decide
theorem test_read_delay_after_the_advance : -- T-KEY-17
    look (fun t => (getV t 3, t.delayTimer, t.delayAcc))
      (executeCycle (secs 1 30) ((setDelayTimer awake 42).withFetchWord 16 0xF307))
      = some (0x29, 41, secs 1 60) := by decide +kernel
theorem test_set_delay_keeps_the_accumulator : -- T-KEY-20
    look (fun t => (t.delayTimer, t.delayAcc))
      (executeCycle (secs 0 1)
        ({ regs [(0, 3)] awake with delayTimer := 9, delayAcc := secs 1 120 }.withFetchWord 16 0xF015))
      = some (3, secs 1 120) := by decide +kernel
theorem test_set_sound : -- T-KEY-22
    look (fun t => (t.soundTimer, t.delayTimer)) (run 0xF118 (regs [(1, 0x1E)] awake)) = some (30, 0) := by decide
theorem test_quantize_floors : quantize 10 (secs 0 1) (secs 1 1) = (0, secs 1 60) := by decide +kernel -- T-TMR-2
theorem test_quantize_zero_keeps : quantize 0 (secs 1 100) (secs 5 1) = (0, secs 1 100) := by decide +kernel -- T-TMR-5
theorem test_quantize_is_strict : -- T-TMR-9
    quantize 3 (secs 1 60) (secs 0 1) = (3, secs 1 60) ∧
    quantize 3 (secs 1 60) (secs 1 6000) = (2, secs 1 6000) := by decide +kernel
theorem test_quantize_two_ticks : quantize 3 (secs 0 1) (secs 21 600) = (1, secs 1 600) := by decide +kernel -- T-TMR-11
theorem test_timers_are_independent : -- T-TMR-14
    let t := timerAdvance (secs 1 10) { awake with delayTimer := 2, soundTimer := 200 }
    (t.delayTimer, t.delayAcc, t.soundTimer, t.soundAcc) = (0, secs 1 60, 195, secs 1 60) := by decide +kernel

/-! ### The cycle, reset and load (T-FLOW, T-RST) -/

theorem test_paused_cycle : -- T-FLOW-35
    look (fun t => t) (executeCycle (secs 1 1) (setDelayTimer (bytesAt 0x200 [0x60, 0x11] State.reset) 5))
      = some (setDelayTimer (bytesAt 0x200 [0x60, 0x11] State.reset) 5) := by decide +kernel
theorem test_fetch_at_FFE : -- T-FLOW-32
    look (fun t => t.pc) (run 0x6000 (setPc awake 0xFFE)) = some 0x1000 := by decide
theorem test_fetch_at_FFF : -- T-FLOW-33
    faultOf (step (bytesAt 0xFFF [0x60] (setPc awake 0xFFF))) = some (.addressOutOfRange 0x1000) := by decide
theorem test_state_at_faults : -- T-FLOW-33 and T-MEM-23
    (stateAtFault (secs 0 1) (setPc awake 0xFFF)).pc = 0xFFF ∧
    (stateAtFault (secs 0 1) (setIndex (awake.withFetchWord 16 0xF033) 0xFFE)).pc = 0x202 := by decide +kernel
theorem test_fetch_at_10FE : -- T-FLOW-23, the next cycle
    faultOf (step (setPc awake 0x10FE)) = some (.addressOutOfRange 0x10FE) := by decide
theorem test_fetch_at_odd_address : -- T-FLOW-34
    look (fun t => (t.pc, t.display.dirty)) (run 0x00E0 (setPc (pixels [] awake) 0x201)) = some (0x203, true) := by decide
theorem test_load_two_bytes : -- T-RST-3
    let t := (loadRom [0x12, 0x00] State.reset).2
    (readBlock t.mem 0x200 3, t.loadedCodeLength, t.paused, t.pc, t.display.dirty)
      = ([0x12, 0, 0], 2, false, 0x200, true) := by decide
theorem test_load_resets_all_but_the_keys : -- T-RST-4
    let dirtyState := held [3] (regs [(1, 9)] (bytesAt 0x300 [1] (bytesAt 0x050 [7] (setStack awake [0x202]))))
    let t := (loadRom [0x00] dirtyState).2
    (getV t 1, readByte t.mem 0x300, readByte t.mem 0x050, t.stack, t.keys[3], t.loadedCodeLength)
      = (0, 0, 0xF0, [], true, 1) := by decide
theorem test_load_too_large : -- T-RST-6
    let r := loadRom (List.replicate 3585 0xAB) (loadRom [0x12, 0x00] State.reset).2
    (r.1, readByte r.2.mem 0x200, r.2.loadedCodeLength, r.2.paused) = (.romTooLarge, 0, 0, true) := by decide +kernel
theorem test_reset_is_paused : look (fun t => t) (step State.reset) = some State.reset := by decide -- T-RST-2
theorem test_with_fetch_word_runs_at_reset :
    look (fun t => (getV t 1, t.pc)) (step (State.reset.withFetchWord 16 0x61FF)) = some (0xFF, 0x202) := by decide

/-! ### Witnesses: values that meet the hypotheses of each statement, clause by clause, at the ends of the ranges -/

/-- The index register and one more thing set, running. -/
def atIndex (w : Word) : State := setIndex awake w

theorem test_witness_DecodeOfEncodeIsTheInstruction :
    (Instr.op5xy0 15 15).wf = true ∧ (Instr.op0nnn 0x0ED).wf = true ∧ (Instr.undef 0xFFFF).wf = true := by decide
theorem test_witness_UndefinedWordsAreTheListedOnes :
    decodeWord 0x5AB1 = .undef 0x5AB1 ∧ decodeWord 0x8AB8 = .undef 0x8AB8 ∧ decodeWord 0x900F = .undef 0x900F ∧
    decodeWord 0xE000 = .undef 0xE000 ∧ decodeWord 0xFFFF = .undef 0xFFFF := by decide
theorem test_witness_NoOpsChangeNothing :
    (0x0E1 : BitVec 12) ≠ 0x0E0 ∧ (0x0E1 : BitVec 12) ≠ 0x0EE ∧ (∀ r ∈ definedRows, r.hits 0x9121 = false) := by decide
theorem test_witness_ReturnPopsTheCallStack :
    awake.stack = [] ∧ (setStack awake [0x206]).stack = 0x206 :: [] := by decide
theorem test_witness_CallPushesReturnAddress : -- the two branches of the limit
    0 ≤ awake.stack.length ∧ ¬ 1 ≤ awake.stack.length ∧ 1 ≤ (setStack awake [0x206]).stack.length := by decide
theorem test_witness_SkipsOnByte : getV awake 1 = 0x00 ∧ getV awake 1 ≠ 0x01 := by decide
theorem test_witness_SkipsOnRegisters :
    getV awake 1 = getV awake 2 ∧ getV (regs [(1, 7)] awake) 1 ≠ getV (regs [(1, 7)] awake) 2 := by decide
theorem test_witness_registers_other_than_VF : (14 : Reg) ≠ 15 ∧ (15 : Reg) = 15 := by decide
theorem test_witness_AddLeavesSumAndCarry :
    256 ≤ (0xFF : Byte).toNat + (0x01 : Byte).toNat ∧ ¬ 256 ≤ (0xFF : Byte).toNat + (0x00 : Byte).toNat := by decide
theorem test_witness_SubtractLeavesDifferenceAndNotBorrow :
    (7 : Byte).toNat ≤ (7 : Byte).toNat ∧ ¬ (8 : Byte).toNat ≤ (7 : Byte).toNat := by decide
theorem test_witness_ShiftsReportTheBitShiftedOut :
    0x80 ≤ (getV (regs [(15, 0x80)] awake) 15).toNat ∧ ¬ 0x80 ≤ (getV (regs [(15, 0x7F)] awake) 15).toNat := by decide
theorem test_witness_RandomByteIsMasked : (0x0F : Byte).getLsbD 3 = true ∧ (0x0F : Byte).getLsbD 4 = false := by decide
theorem test_witness_StoreBcdWritesThreeDigits :
    (atIndex 0xFFD).index.toNat + 2 < 0x1000 ∧ (atIndex 0xFFD).mem.wf = true ∧
    0x1000 ≤ (atIndex 0xFFE).index.toNat + 2 := by decide
theorem test_witness_StoreRegistersWritesTheBlock :
    (atIndex 0xFF0).index.toNat + (15 : Reg).val < 0x1000 ∧ (atIndex 0xFF0).mem.wf = true ∧ (15 : Reg) ≤ 15 ∧
    0x1000 ≤ (atIndex 0xFF1).index.toNat + (15 : Reg).val := by decide
theorem test_witness_LoadRegistersReadsTheBlock :
    (atIndex 0xFFF).index.toNat + (0 : Reg).val < 0x1000 ∧ 0x1000 ≤ (atIndex 0x1000).index.toNat + (0 : Reg).val := by
  decide
theorem test_witness_StoredRegistersLoadBack :
    (atIndex 0xFFF).mem.wf = true ∧ ∃ t, exec (.opFx55 0) (atIndex 0xFFF) = .next t := ⟨by decide, _, rfl⟩
theorem test_witness_StoredBytesAreFetchedNext : -- T-MEM-38, and the last place in memory
    1 ≤ (1 : Reg).val ∧ (setIndex (setPc awake 0xFFE) 0xFFE).index = (setPc awake 0xFFE).pc ∧
    (setPc awake 0xFFE).pc.toNat + (1 : Reg).val < 0x1000 ∧ awake.mem.wf = true ∧ awake.paused = false := by decide
theorem test_witness_DrawInstructionDrawsAndFlags :
    ((0 : Fin 16) = 0 ∨ (atIndex 0xFFFF).index.toNat + (0 : Fin 16).val ≤ 0x1000) ∧
    ((15 : Fin 16) = 0 ∨ (atIndex 0xFF1).index.toNat + (15 : Fin 16).val ≤ 0x1000) ∧
    ((15 : Fin 16) ≠ 0 ∧ 0x1000 < (atIndex 0xFF2).index.toNat + (15 : Fin 16).val) := by decide
theorem test_witness_covered : spriteCovers 63 31 [0xFF] 6 31 := ⟨0, 7, 0xFF, by decide⟩
theorem test_witness_not_covered : ¬ spriteCovers 63 31 [0xFF] 6 0 := by
  rintro ⟨r, col, row, hr, -, -, -, hy⟩
  cases r with
  | zero => exact absurd hy (by decide)
  | succ n => simp at hr
theorem test_witness_DrawInvertsExactlyTheCoveredPixels :
    (List.replicate 15 (0x80 : Byte)).length ≤ 15 ∧ wrapColumn (63 + 1) = wrapColumn (63 + 1) ∧
    wrapRow (31 + 14) = wrapRow (31 + 14) := by decide
theorem test_witness_RedrawRestoresTheDisplay :
    (0 : Fin 16) ≠ 15 ∧ (1 : Fin 16) ≠ 15 ∧ ∃ t, exec (.opDxyn 0 1 1) (atIndex 0xFFF) = .next t :=
  ⟨by decide, by decide, _, rfl⟩
theorem test_witness_SkipsOnKey :
    (getV (regs [(4, 15)] awake) 4).toNat = (15 : KeyNum).val ∧ 16 ≤ (getV (regs [(4, 16)] awake) 4).toNat ∧
    (held [15] awake).keys[15] = true := by decide
theorem test_witness_WaitForKeyTakesTheLowest :
    (∀ k : KeyNum, awake.keys[k.val] = false) ∧ (held [15] awake).keys[15] = true ∧
    (∀ j : KeyNum, j < 15 → (held [15] awake).keys[j.val] = false) ∧ (held [0, 15] awake).keys[0] = true ∧
    (∀ j : KeyNum, j < 0 → (held [0, 15] awake).keys[j.val] = false) := by decide
theorem test_witness_QuantizeMeetsItsClosedForm : (1 : Byte) ≠ 0 ∧ (255 : Byte) ≠ 0 := by decide
theorem test_witness_AccumulatorStaysWithinOneTick :
    (secs 1 60).val ≤ 1 / 60 ∧ (1 : Byte) ≠ 0 ∧ 0 < (secs 1 60).val + (secs 0 1).val := by decide +kernel
theorem test_witness_OneTickPerCallAfterTheFirst : (60 : Byte) ≠ 0 := by decide
theorem test_witness_CountsMatchElapsedTime : -- T-TMR-3, its first three calls
    ([secs 1 20, secs 1 20, secs 1 20].foldl (fun p dt => quantize p.1 p.2 dt) ((10 : Byte), secs 0 1)).1 ≠ 0 := by
  decide +kernel
theorem test_witness_StepRunsTheDecodedInstruction :
    (setPc awake 0xFFE).paused = false ∧ (setPc awake 0xFFE).pc.toNat + 1 < 0x1000 ∧ awake.script = [] ∧
    (setScript awake [.executeCycle (secs 1 60)]).script = .executeCycle (secs 1 60) :: [] := by decide +kernel
theorem test_witness_PausedCycleChangesNothing : State.reset.paused = true ∧ State.reset.script = [] := by decide
theorem test_witness_FetchOutOfRangeFaults :
    (setPc awake 0xFFF).paused = false ∧ 0xFFF ≤ (setPc awake 0xFFF).pc.toNat ∧
    0xFFF ≤ (setPc awake 0x10FE).pc.toNat := by decide
theorem test_witness_HostMovesActBetweenCycles :
    (setScript awake [.setPaused true]).script = .setPaused true :: [] ∧
    (setScript awake [.setKey 15 true]).script = .setKey 15 true :: [] ∧
    (setScript awake [.acknowledgeDirty]).script = .acknowledgeDirty :: [] ∧
    (setScript awake [.loadRom [0x12]]).script = .loadRom [0x12] :: [] ∧
    (setScript awake [.construct]).script = .construct :: [] := by decide +kernel
theorem test_witness_ConstructionDefaults :
    0x050 ≤ 0x09F ∧ font[0x09F - 0x050]? = some 0x80 ∧ font[0]? = some 0xF0 ∧ 0x04F < 0x050 ∧ 0x09F < 0x0A0 := by decide
theorem test_witness_LoadRomResetsAndCopies :
    (List.replicate 3584 (0xAB : Byte)).length ≤ 3584 ∧ ([] : List Byte).length ≤ 3584 :=
  ⟨Nat.le_of_eq List.length_replicate, Nat.zero_le _⟩
theorem test_witness_LoadRomTooLargeLeavesReset : 3584 < (List.replicate 3585 (0xAB : Byte)).length := by
  rw [List.length_replicate]; decide
theorem test_witness_HostViewsShowTheState : 1 < (loadRom [0x12, 0x00] State.reset).2.loadedCodeLength := by decide
theorem test_witness_invariant_on_a_running_state : MachineInvariant (setStack (setPc awake 0x10FE) [0x1000]) := by
  exact ⟨by decide, by decide +kernel, by decide +kernel, Nat.zero_le _, by decide, List.forall_mem_singleton.mpr (by decide)⟩
theorem test_witness_EveryStepKeepsTheInvariant :
    MachineInvariant awake ∧ ∃ t, step awake = .next t :=
  ⟨⟨by decide, by decide +kernel, by decide +kernel, Nat.zero_le _, by decide, List.forall_mem_nil _⟩, _, rfl⟩
theorem test_witness_instructions_that_leave_state_alone : -- for the statements over all instructions but some
    (∀ x, Instr.op6xkk 1 2 ≠ .opFx33 x) ∧ (∀ x, Instr.op6xkk 1 2 ≠ .opFx55 x) ∧ (∀ a, Instr.op6xkk 1 2 ≠ .op2nnn a) ∧
    Instr.op6xkk 1 2 ≠ .op00EE ∧ Instr.op6xkk 1 2 ≠ .op00E0 ∧ (∀ x y n, Instr.op6xkk 1 2 ≠ .opDxyn x y n) ∧
    (∀ x, Instr.op6xkk 1 2 ≠ .opFx15 x) ∧ (∀ x, Instr.op6xkk 1 2 ≠ .opFx18 x) ∧ ¬ movesPc (.op6xkk 1 2) ∧
    ∃ t, exec (.op6xkk 1 2) awake = .next t := by
  refine ⟨?_, ?_, ?_, ?_, ?_, ?_, ?_, ?_, ?_, _, rfl⟩ <;> simp [movesPc]
theorem test_witness_OnlyIndexInstructionsWriteI :
    (∀ a, Instr.opFx33 1 ≠ .opAnnn a) ∧ (∀ x, Instr.opFx33 1 ≠ .opFx1E x) ∧ (∀ x, Instr.opFx33 1 ≠ .opFx29 x) ∧
    (∀ x, Instr.opFx33 1 ≠ .opFx55 x) ∧ (∀ x, Instr.opFx33 1 ≠ .opFx65 x) ∧
    ∃ t, exec (.opFx33 1) (atIndex 0xFFD) = .next t := by
  refine ⟨?_, ?_, ?_, ?_, ?_, _, rfl⟩ <;> simp
theorem test_witness_dirty_display : awake.display.dirty = true := by decide
theorem test_witness_InstructionFaultsAreTheListedOnes :
    faultOf (exec (.opDxyn 0 1 15) (atIndex 0xFF2)) = some (.addressOutOfRange 0x1000) ∧
    faultOf (exec (.opFx33 0) (atIndex 0xFFE)) = some (.addressOutOfRange 0x1000) ∧
    faultOf (exec (.opFx55 15) (atIndex 0xFF1)) = some (.addressOutOfRange 0x1000) ∧
    faultOf (exec (.opFx65 0) (atIndex 0x1000)) = some (.addressOutOfRange 0x1000) ∧
    faultOf (exec (.opExA1 4) (regs [(4, 16)] awake)) = some (.keyIndexOutOfRange 16) := by decide

end Sys2Proof.Tests
end

section
/-!
PROOFS. Control transfer and no-ops (41_control_flow.md): the words of the no-ops and of the skips, what their arms
answer, and the obligations O6, O11 and O12.
-/

namespace Sys2Proof

/-! ### Words of the no-ops and of the skips -/

/-- Top nibble 0 and neither 00E0 nor 00EE (R75, R78): the low 12 bits tell the word from both. -/
theorem decodeWord_op0nnn (nnn : BitVec 12) (hclear : nnn ≠ 0x0E0) (hreturn : nnn ≠ 0x0EE) :
    decodeWord (formatA 0x0 nnn) = .op0nnn nnn := by
  have hfield : nnnField (formatA 0x0 nnn) = nnn := nnnField_formatA 0x0 nnn
  have hE0 : formatA 0x0 nnn ≠ 0x00E0 := fun h => hclear (hfield.symm.trans (congrArg nnnField h))
  have hEE : formatA 0x0 nnn ≠ 0x00EE := fun h => hreturn (hfield.symm.trans (congrArg nnnField h))
  calc decodeWord (formatA 0x0 nnn) = decode0 (formatA 0x0 nnn) := by simp [decodeWord]
    _ = .op0nnn (nnnField (formatA 0x0 nnn)) := by rw [decode0, if_neg hE0, if_neg hEE]
    _ = .op0nnn nnn := by rw [hfield]

theorem decodeWord_op3xkk (x : Reg) (kk : Byte) : decodeWord (formatXK 0x3 x kk) = .op3xkk x kk := by simp [decodeWord]

theorem decodeWord_op4xkk (x : Reg) (kk : Byte) : decodeWord (formatXK 0x4 x kk) = .op4xkk x kk := by simp [decodeWord]

theorem decodeWord_op5xy0 (x y : Reg) : decodeWord (formatXYN 0x5 x y 0x0) = .op5xy0 x y := by simp [decodeWord]

theorem decodeWord_op9xy0 (x y : Reg) : decodeWord (formatXYN 0x9 x y 0x0) = .op9xy0 x y := by simp [decodeWord]

/-- A word that rows 1 to 35 all miss reaches an undefined leaf of the decoder: its top nibble is 5, 8, 9, E or F, and
the low nibble or low byte selects nothing there (R77, R109). -/
theorem decodeWord_undef (w : Word) (h : ∀ r ∈ definedRows, r.hits w = false) : decodeWord w = .undef w := by
  have hmiss : (definedRows.any fun r => r.hits w) = false := by simpa using h
  simp only [any_hits_defined, Bool.or_eq_false_iff, Bool.and_eq_false_iff, decide_eq_false_iff_not] at hmiss
  have hop : opField w = 0x5 ∨ opField w = 0x8 ∨ opField w = 0x9 ∨ opField w = 0xE ∨ opField w = 0xF := by
    grind
  obtain hop | hop | hop | hop | hop := hop <;> simp [hop] at hmiss
  · simp [decodeWord, hop, hmiss]
  · simp [decodeWord, decode8, hop, hmiss]
  · simp [decodeWord, hop, hmiss]
  · simp [decodeWord, decodeE, hop, hmiss]
  · simp [decodeWord, decodeF, hop, hmiss]

end Sys2Proof

namespace Sys2Proof.Machine

/-! ### The arms of the no-ops and of the skips -/

theorem exec_op0nnn (nnn : BitVec 12) (s : State) : exec (.op0nnn nnn) s = .next s := rfl

theorem exec_undef (w : Word) (s : State) : exec (.undef w) s = .next s := rfl

theorem exec_op3xkk (x : Reg) (kk : Byte) (s : State) :
    exec (.op3xkk x kk) s = .next (skipIf (getV s x == kk) s) := rfl

theorem exec_op4xkk (x : Reg) (kk : Byte) (s : State) :
    exec (.op4xkk x kk) s = .next (skipIf (getV s x != kk) s) := rfl

theorem exec_op5xy0 (x y : Reg) (s : State) :
    exec (.op5xy0 x y) s = .next (skipIf (getV s x == getV s y) s) := rfl

theorem exec_op9xy0 (x y : Reg) (s : State) :
    exec (.op9xy0 x y) s = .next (skipIf (getV s x != getV s y) s) := rfl

/-! ### The effect of a skip -/

/-- A skip, taken or not, leaves all but `pc` as it was (R12). -/
theorem onlyPc_skipIf (c : Bool) (s : State) : OnlyPc s (skipIf c s) :=
  ⟨fun r _ => getV_skipIf s c r, fun a => by rw [skipIf_mem], by cases c <;> rfl⟩

/-- An instruction that skips where two bytes are equal. -/
theorem skip_of_eq {r : Result} {s : State} {a b : Byte} (h : r = .next (skipIf (a == b) s)) :
    ∃ t, r = .next t ∧ t.pc = (if a = b then s.pc + 2 else s.pc) ∧ OnlyPc s t :=
  ⟨_, h, by simp, onlyPc_skipIf _ s⟩

/-- An instruction that skips where two bytes differ. -/
theorem skip_of_ne {r : Result} {s : State} {a b : Byte} (h : r = .next (skipIf (a != b) s)) :
    ∃ t, r = .next t ∧ t.pc = (if a = b then s.pc else s.pc + 2) ∧ OnlyPc s t :=
  ⟨_, h, by simp, onlyPc_skipIf _ s⟩

/-! ### Obligations -/

/-- Settles O6: both no-ops decode from the words the map leaves them, and their arms answer the dispatched state. -/
theorem noOpsChangeNothing : Obligations.NoOpsChangeNothing :=
  ⟨decodeWord_op0nnn, exec_op0nnn, decodeWord_undef, exec_undef⟩

/-- Settles O11: both are one conditional skip, on a register compared with the byte. -/
theorem skipsOnByte : Obligations.SkipsOnByte := fun x kk s =>
  ⟨decodeWord_op3xkk x kk, decodeWord_op4xkk x kk, skip_of_eq (exec_op3xkk x kk s), skip_of_ne (exec_op4xkk x kk s)⟩

/-- Settles O12: both are one conditional skip, on two registers compared. -/
theorem skipsOnRegisters : Obligations.SkipsOnRegisters := fun x y s =>
  ⟨decodeWord_op5xy0 x y, decodeWord_op9xy0 x y, skip_of_eq (exec_op5xy0 x y s), skip_of_ne (exec_op9xy0 x y s)⟩

end Sys2Proof.Machine
end

section
/-!
PROOFS. Load, add byte, copy and logic (42_load_alu.md): the operations that write `V[x]` and no flag, their words,
what their arms answer, and the obligations O14, O15 and O16.
-/

namespace Sys2Proof

/-! ### Words of the operations that write one register -/

theorem decodeWord_op6xkk (x : Reg) (kk : Byte) : decodeWord (formatXK 0x6 x kk) = .op6xkk x kk := by simp [decodeWord]

theorem decodeWord_op7xkk (x : Reg) (kk : Byte) : decodeWord (formatXK 0x7 x kk) = .op7xkk x kk := by simp [decodeWord]

theorem decodeWord_op8xy0 (x y : Reg) : decodeWord (formatXYN 0x8 x y 0x0) = .op8xy0 x y := by
  simp [decodeWord, decode8]

theorem decodeWord_op8xy1 (x y : Reg) : decodeWord (formatXYN 0x8 x y 0x1) = .op8xy1 x y := by
  simp [decodeWord, decode8]

theorem decodeWord_op8xy2 (x y : Reg) : decodeWord (formatXYN 0x8 x y 0x2) = .op8xy2 x y := by
  simp [decodeWord, decode8]

theorem decodeWord_op8xy3 (x y : Reg) : decodeWord (formatXYN 0x8 x y 0x3) = .op8xy3 x y := by
  simp [decodeWord, decode8]

end Sys2Proof

namespace Sys2Proof.Machine

/-! ### The arms of the operations that write one register -/

theorem exec_op6xkk (x : Reg) (kk : Byte) (s : State) : exec (.op6xkk x kk) s = .next (setV s x kk) := rfl

theorem exec_op7xkk (x : Reg) (kk : Byte) (s : State) :
    exec (.op7xkk x kk) s = .next (setV s x (getV s x + kk)) := rfl

theorem exec_op8xy0 (x y : Reg) (s : State) : exec (.op8xy0 x y) s = .next (setV s x (getV s y)) := rfl

theorem exec_op8xy1 (x y : Reg) (s : State) :
    exec (.op8xy1 x y) s = .next (setV s x (getV s x ||| getV s y)) := rfl

theorem exec_op8xy2 (x y : Reg) (s : State) :
    exec (.op8xy2 x y) s = .next (setV s x (getV s x &&& getV s y)) := rfl

theorem exec_op8xy3 (x y : Reg) (s : State) :
    exec (.op8xy3 x y) s = .next (setV s x (getV s x ^^^ getV s y)) := rfl

/-! ### The effect of one register write -/

/-- A register write leaves every other register, memory and every other field as they were. -/
theorem onlyRegisters_setV (s : State) (x : Reg) (b : Byte) : OnlyRegisters (· = x) s (setV s x b) :=
  ⟨fun _ hr => getV_setV_other s b hr, fun a => by rw [setV_mem], rfl⟩

/-- The later of two writes to one register counts. -/
@[simp] theorem setV_setV_same (s : State) (x : Reg) (a b : Byte) : setV (setV s x a) x b = setV s x b := by
  simp [setV]

/-- Writing back what a register holds changes nothing. -/
@[simp] theorem setV_getV_same (s : State) (x : Reg) : setV s x (getV s x) = s := by
  simp [setV, getV]

/-- Adding `256 - kk` is subtracting `kk`, modulo 256 (S1); for `kk = 0` the byte of 256 is 0. -/
theorem add_byte_restores (a kk : Byte) : a + kk + BitVec.ofNat 8 (256 - kk.toNat) = a := by
  have hneg : BitVec.ofNat 8 (256 - kk.toNat) = -kk := rfl
  rw [hneg, add_neg_cancel_right]

/-- 7xkk with `kk` and then with `256 - kk` gives back the whole state (S1). -/
theorem exec_op7xkk_restores (x : Reg) (kk : Byte) (s : State) :
    exec (.op7xkk x (BitVec.ofNat 8 (256 - kk.toNat))) (setV s x (getV s x + kk)) = .next s := by
  rw [exec_op7xkk, getV_setV_same, setV_setV_same, add_byte_restores, setV_getV_same]

/-! ### Obligations -/

/-- Settles O14: both are one register write, of the byte or of the other register. -/
theorem loadByteAndCopy : Obligations.LoadByteAndCopy := fun x y kk s =>
  ⟨decodeWord_op6xkk x kk, decodeWord_op8xy0 x y,
    ⟨_, exec_op6xkk x kk s, getV_setV_same s x _, onlyRegisters_setV s x _⟩,
    ⟨_, exec_op8xy0 x y s, getV_setV_same s x _, onlyRegisters_setV s x _⟩⟩

/-- Settles O15: one register write of the sum; the second one writes back the register's first value. -/
theorem addByteWrapsWithoutFlag : Obligations.AddByteWrapsWithoutFlag := fun x kk s =>
  ⟨decodeWord_op7xkk x kk, _, exec_op7xkk x kk s, by rw [getV_setV_same, BitVec.toNat_add],
    onlyRegisters_setV s x _, s, exec_op7xkk_restores x kk s, rfl, rfl⟩

/-- Settles O16: each is one register write, of a word whose bits the bitwise operation gives one by one. -/
theorem logicOperationsAreBitwise : Obligations.LogicOperationsAreBitwise := fun x y s =>
  ⟨decodeWord_op8xy1 x y, decodeWord_op8xy2 x y, decodeWord_op8xy3 x y,
    ⟨_, exec_op8xy1 x y s, fun k => by rw [getV_setV_same, BitVec.getLsbD_or], onlyRegisters_setV s x _⟩,
    ⟨_, exec_op8xy2 x y s, fun k => by rw [getV_setV_same, BitVec.getLsbD_and], onlyRegisters_setV s x _⟩,
    ⟨_, exec_op8xy3 x y s, fun k => by rw [getV_setV_same, BitVec.getLsbD_xor, Bool.bne_eq_xor],
      onlyRegisters_setV s x _⟩⟩

end Sys2Proof.Machine
end

section
/-!
PROOFS. Display (44_display.md): the word of 00E0, what its arm answers, and the obligation O29.
-/

namespace Sys2Proof

/-! ### Word of the clear -/

theorem decodeWord_op00E0 : decodeWord 0x00E0 = .op00E0 := by decide

end Sys2Proof

namespace Sys2Proof.Machine

/-! ### The arm of the clear -/

theorem exec_op00E0 (s : State) : exec .op00E0 s = .next (setDisplay s clearDisplay) := rfl

/-! ### The effect of one display write -/

/-- A display write leaves every register, memory and every other field as they were. -/
theorem onlyDisplay_setDisplay (s : State) (d : Display) :
    SameRegistersBut (fun _ => False) s (setDisplay s d) ∧ SameMemory s (setDisplay s d) ∧
    setDisplay s d = { s with display := (setDisplay s d).display } :=
  ⟨fun r _ => getV_setDisplay s d r, fun a => by rw [setDisplay_mem], rfl⟩

/-! ### Obligations -/

/-- Settles O29: 00E0 is one display write, of the display whose pixels are all 0 and which is marked dirty. -/
theorem clearMakesEveryPixelZero : Obligations.ClearMakesEveryPixelZero :=
  ⟨decodeWord_op00E0, fun s =>
    ⟨_, exec_op00E0 s, getPixel_clearDisplay, clearDisplay_dirty, onlyDisplay_setDisplay s clearDisplay⟩⟩

end Sys2Proof.Machine
end

section
/-!
PROOFS. The wait for a key (45_keys_timers.md): the word of Fx0A, what its arm answers, and the obligation O34.
-/

namespace Sys2Proof

/-! ### Word of the wait for a key -/

theorem decodeWord_opFx0A (x : Reg) : decodeWord (formatXK 0xF x 0x0A) = .opFx0A x := by simp [decodeWord, decodeF]

end Sys2Proof

namespace Sys2Proof.Machine

/-! ### The lowest pressed key, from the levels -/

/-- Where no key is pressed there is no lowest one. -/
theorem lowestPressed_eq_none {s : State} (hup : ∀ k : KeyNum, s.keys[k.val] = false) : lowestPressed s = none := by
  cases h : lowestPressed s with
  | none => rfl
  | some k =>
    obtain ⟨hk, hdown, -⟩ := lowestPressed_some h
    exact absurd hdown (by simp [hup ⟨k, hk⟩])

/-- A pressed key with none pressed below it is the lowest: of two such keys neither is below the other. -/
theorem lowestPressed_eq_some {s : State} {k : KeyNum} (hdown : s.keys[k.val] = true)
    (hlow : ∀ j : KeyNum, j < k → s.keys[j.val] = false) : lowestPressed s = some k.val := by
  cases h : lowestPressed s with
  | none => exact absurd hdown (by simp [lowestPressed_none h k.val k.isLt])
  | some m =>
    obtain ⟨hm, hmdown, hmlow⟩ := lowestPressed_some h
    have hkm : ¬ k.val < m := fun hlt => absurd hdown (by simp [hmlow k.val hlt])
    have hmk : ¬ m < k.val := fun hlt => absurd hmdown (by simp [hlow ⟨m, hm⟩ hlt])
    rw [Nat.le_antisymm (Nat.not_lt.mp hkm) (Nat.not_lt.mp hmk)]

/-! ### The arm of the wait for a key -/

theorem exec_opFx0A (x : Reg) (s : State) : exec (.opFx0A x) s = execFx0A x s := rfl

/-- With no key pressed Fx0A goes back to itself (R172). -/
theorem exec_opFx0A_of_none (x : Reg) {s : State} (h : lowestPressed s = none) :
    exec (.opFx0A x) s = .next (setPc s (s.pc - 2)) := by
  rw [exec_opFx0A, execFx0A, h]

/-- Else it takes the lowest pressed key (R172). -/
theorem exec_opFx0A_of_some (x : Reg) {s : State} {k : Nat} (h : lowestPressed s = some k) :
    exec (.opFx0A x) s = .next (setV s x (BitVec.ofNat 8 k)) := by
  rw [exec_opFx0A, execFx0A, h]

/-! ### The effect of one write of `pc`, and of one of a key number -/

/-- A write of `pc` leaves every register, memory and every other field as they were. -/
theorem onlyPc_setPc (s : State) (w : Word) : OnlyPc s (setPc s w) :=
  ⟨fun r _ => getV_setPc s w r, fun a => by rw [setPc_mem], rfl⟩

/-- A key number fits a byte. -/
theorem toNat_ofNat_keyNum (k : KeyNum) : (BitVec.ofNat 8 k.val).toNat = k.val := by
  rw [BitVec.toNat_ofNat, Nat.mod_eq_of_lt (by omega)]

/-! ### Obligation -/

/-- Settles O34: with no lowest key Fx0A is one write of `pc`, else one register write of that key's number. -/
theorem waitForKeyTakesTheLowest : Obligations.WaitForKeyTakesTheLowest := fun x s =>
  ⟨decodeWord_opFx0A x,
    fun hup => ⟨_, exec_opFx0A_of_none x (lowestPressed_eq_none hup), setPc_pc s _, onlyPc_setPc s _⟩,
    fun k hdown hlow =>
      ⟨_, exec_opFx0A_of_some x (lowestPressed_eq_some hdown hlow), by rw [getV_setV_same, toNat_ofNat_keyNum],
        onlyRegisters_setV s x _⟩⟩

end Sys2Proof.Machine
end

section
/-!
PROOFS. The decoder and the encoder (30_encoding.md): the words of the other instructions, both directions of the round
trip, the opcode map read from top to bottom, the undefined words, and the obligations O1 to O5.
-/

namespace Sys2Proof

/-! ### Words of the other instructions -/

theorem decodeWord_op00EE : decodeWord 0x00EE = .op00EE := by decide

theorem decodeWord_op1nnn (nnn : BitVec 12) : decodeWord (formatA 0x1 nnn) = .op1nnn nnn := by simp [decodeWord]

theorem decodeWord_op2nnn (nnn : BitVec 12) : decodeWord (formatA 0x2 nnn) = .op2nnn nnn := by simp [decodeWord]

theorem decodeWord_op8xy4 (x y : Reg) : decodeWord (formatXYN 0x8 x y 0x4) = .op8xy4 x y := by
  simp [decodeWord, decode8]

theorem decodeWord_op8xy5 (x y : Reg) : decodeWord (formatXYN 0x8 x y 0x5) = .op8xy5 x y := by
  simp [decodeWord, decode8]

theorem decodeWord_op8xy6 (x y : Reg) : decodeWord (formatXYN 0x8 x y 0x6) = .op8xy6 x y := by
  simp [decodeWord, decode8]

theorem decodeWord_op8xy7 (x y : Reg) : decodeWord (formatXYN 0x8 x y 0x7) = .op8xy7 x y := by
  simp [decodeWord, decode8]

theorem decodeWord_op8xyE (x y : Reg) : decodeWord (formatXYN 0x8 x y 0xE) = .op8xyE x y := by
  simp [decodeWord, decode8]

theorem decodeWord_opAnnn (nnn : BitVec 12) : decodeWord (formatA 0xA nnn) = .opAnnn nnn := by simp [decodeWord]

theorem decodeWord_opBnnn (nnn : BitVec 12) : decodeWord (formatA 0xB nnn) = .opBnnn nnn := by simp [decodeWord]

theorem decodeWord_opCxkk (x : Reg) (kk : Byte) : decodeWord (formatXK 0xC x kk) = .opCxkk x kk := by simp [decodeWord]

theorem decodeWord_opDxyn (x y n : Fin 16) : decodeWord (formatXYN 0xD x y n) = .opDxyn x y n := by simp [decodeWord]

theorem decodeWord_opEx9E (x : Reg) : decodeWord (formatXK 0xE x 0x9E) = .opEx9E x := by simp [decodeWord, decodeE]

theorem decodeWord_opExA1 (x : Reg) : decodeWord (formatXK 0xE x 0xA1) = .opExA1 x := by simp [decodeWord, decodeE]

theorem decodeWord_opFx07 (x : Reg) : decodeWord (formatXK 0xF x 0x07) = .opFx07 x := by simp [decodeWord, decodeF]

theorem decodeWord_opFx15 (x : Reg) : decodeWord (formatXK 0xF x 0x15) = .opFx15 x := by simp [decodeWord, decodeF]

theorem decodeWord_opFx18 (x : Reg) : decodeWord (formatXK 0xF x 0x18) = .opFx18 x := by simp [decodeWord, decodeF]

theorem decodeWord_opFx1E (x : Reg) : decodeWord (formatXK 0xF x 0x1E) = .opFx1E x := by simp [decodeWord, decodeF]

theorem decodeWord_opFx29 (x : Reg) : decodeWord (formatXK 0xF x 0x29) = .opFx29 x := by simp [decodeWord, decodeF]

theorem decodeWord_opFx33 (x : Reg) : decodeWord (formatXK 0xF x 0x33) = .opFx33 x := by simp [decodeWord, decodeF]

theorem decodeWord_opFx55 (x : Reg) : decodeWord (formatXK 0xF x 0x55) = .opFx55 x := by simp [decodeWord, decodeF]

theorem decodeWord_opFx65 (x : Reg) : decodeWord (formatXK 0xF x 0x65) = .opFx65 x := by simp [decodeWord, decodeF]

/-! ### From an instruction to its word and back -/

theorem forall_hits_false_of_undefinedWord {w : Word} (h : undefinedWord w = true) :
    ∀ r ∈ definedRows, r.hits w = false := by
  simpa [undefinedWord] using h

/-- Every well-formed instruction is decoded from its own encoding; only 0nnn and an undefined word need to be
well-formed for it. -/
theorem decodeWord_encode (i : Instr) (hwf : i.wf = true) : decodeWord (encode i) = i := by
  cases i with
  | op00E0 => exact decodeWord_op00E0
  | op00EE => exact decodeWord_op00EE
  | op1nnn nnn => exact decodeWord_op1nnn nnn
  | op2nnn nnn => exact decodeWord_op2nnn nnn
  | op3xkk x kk => exact decodeWord_op3xkk x kk
  | op4xkk x kk => exact decodeWord_op4xkk x kk
  | op5xy0 x y => exact decodeWord_op5xy0 x y
  | op6xkk x kk => exact decodeWord_op6xkk x kk
  | op7xkk x kk => exact decodeWord_op7xkk x kk
  | op8xy0 x y => exact decodeWord_op8xy0 x y
  | op8xy1 x y => exact decodeWord_op8xy1 x y
  | op8xy2 x y => exact decodeWord_op8xy2 x y
  | op8xy3 x y => exact decodeWord_op8xy3 x y
  | op8xy4 x y => exact decodeWord_op8xy4 x y
  | op8xy5 x y => exact decodeWord_op8xy5 x y
  | op8xy6 x y => exact decodeWord_op8xy6 x y
  | op8xy7 x y => exact decodeWord_op8xy7 x y
  | op8xyE x y => exact decodeWord_op8xyE x y
  | op9xy0 x y => exact decodeWord_op9xy0 x y
  | opAnnn nnn => exact decodeWord_opAnnn nnn
  | opBnnn nnn => exact decodeWord_opBnnn nnn
  | opCxkk x kk => exact decodeWord_opCxkk x kk
  | opDxyn x y n => exact decodeWord_opDxyn x y n
  | opEx9E x => exact decodeWord_opEx9E x
  | opExA1 x => exact decodeWord_opExA1 x
  | opFx07 x => exact decodeWord_opFx07 x
  | opFx0A x => exact decodeWord_opFx0A x
  | opFx15 x => exact decodeWord_opFx15 x
  | opFx18 x => exact decodeWord_opFx18 x
  | opFx1E x => exact decodeWord_opFx1E x
  | opFx29 x => exact decodeWord_opFx29 x
  | opFx33 x => exact decodeWord_opFx33 x
  | opFx55 x => exact decodeWord_opFx55 x
  | opFx65 x => exact decodeWord_opFx65 x
  | op0nnn nnn =>
    obtain ⟨hclear, hreturn⟩ : nnn ≠ 0x0E0 ∧ nnn ≠ 0x0EE := by simpa [Instr.wf] using hwf
    exact decodeWord_op0nnn nnn hclear hreturn
  | undef w => exact decodeWord_undef w (forall_hits_false_of_undefinedWord hwf)

/-- The byte decoder reads the two bytes of a word and leaves the rest. -/
theorem decode_bytes_append (w : Word) (rest : List Byte) :
    decode ([highByte w, lowByte w] ++ rest) = .ok (decodeWord w, rest) := by
  simp [decode]

/-! ### The undefined words -/

theorem nField_eq_iff (w : Word) (n : Fin 16) : nField w = n ↔ w.extractLsb' 0 4 = BitVec.ofFin n :=
  ⟨fun h => by rw [← h]; rfl, fun h => by rw [nField, h]⟩

/-- The values of nibble 0, one by one. -/
theorem nibble_cases (o : BitVec 4) : o = 0x0 ∨ o = 0x1 ∨ o = 0x2 ∨ o = 0x3 ∨ o = 0x4 ∨ o = 0x5 ∨ o = 0x6 ∨ o = 0x7 ∨
    o = 0x8 ∨ o = 0x9 ∨ o = 0xA ∨ o = 0xB ∨ o = 0xC ∨ o = 0xD ∨ o = 0xE ∨ o = 0xF := by
  revert o; decide

/-- The low nibbles of the rows 8xyN, and the seven that are left (R77). -/
theorem lowNibble_undefined_iff (n : Fin 16) :
    (n ≠ 0x0 ∧ n ≠ 0x1 ∧ n ≠ 0x2 ∧ n ≠ 0x3 ∧ n ≠ 0x4 ∧ n ≠ 0x5 ∧ n ≠ 0x6 ∧ n ≠ 0x7 ∧ n ≠ 0xE) ↔
      n ∈ [0x8, 0x9, 0xA, 0xB, 0xC, 0xD, 0xF] := by
  revert n; decide

/-- The words that rows 1 to 35 all miss are the five groups of R77: for each value of nibble 0 only the rows with that
value are left to test. -/
theorem undefinedWord_iff (w : Word) : undefinedWord w = true ↔
    (opField w = 0x5 ∧ nField w ≠ 0x0) ∨
    (opField w = 0x8 ∧ nField w ∈ [0x8, 0x9, 0xA, 0xB, 0xC, 0xD, 0xF]) ∨
    (opField w = 0x9 ∧ nField w ≠ 0x0) ∨
    (opField w = 0xE ∧ kkField w ∉ [0x9E, 0xA1]) ∨
    (opField w = 0xF ∧ kkField w ∉ [0x07, 0x0A, 0x15, 0x18, 0x1E, 0x29, 0x33, 0x55, 0x65]) := by
  have hclear : opField w ≠ 0x0 → w ≠ 0x00E0 := fun h hw => h (by rw [hw]; rfl)
  have hreturn : opField w ≠ 0x0 → w ≠ 0x00EE := fun h hw => h (by rw [hw]; rfl)
  rw [undefinedWord, any_hits_defined, ← lowNibble_undefined_iff]
  obtain h | h | h | h | h | h | h | h | h | h | h | h | h | h | h | h := nibble_cases (opField w) <;>
    simp_all [and_assoc]

/-! ### From a word to its instruction and back -/

theorem formatA_of_field {w : Word} {o : BitVec 4} (ho : opField w = o) : formatA o (nnnField w) = w :=
  ho ▸ formatA_fields w

theorem formatXK_of_field {w : Word} {o : BitVec 4} (ho : opField w = o) : formatXK o (xField w) (kkField w) = w :=
  ho ▸ formatXK_fields w

theorem formatXYN_of_field {w : Word} {o : BitVec 4} (ho : opField w = o) :
    formatXYN o (xField w) (yField w) (nField w) = w := ho ▸ formatXYN_fields w

theorem formatXK_of_fields {w : Word} {o : BitVec 4} {k : Byte} (ho : opField w = o) (hk : kkField w = k) :
    formatXK o (xField w) k = w := hk ▸ formatXK_of_field ho

theorem formatXYN_of_fields {w : Word} {o : BitVec 4} {n : Fin 16} (ho : opField w = o) (hn : nField w = n) :
    formatXYN o (xField w) (yField w) n = w := hn ▸ formatXYN_of_field ho

/-- `i` is a well-formed instruction and `w` is its encoding. -/
def Encodes (w : Word) (i : Instr) : Prop := i.wf = true ∧ encode i = w

theorem encodes_decode0 {w : Word} (ho : opField w = 0x0) : Encodes w (decode0 w) := by
  have hw : formatA 0x0 (nnnField w) = w := formatA_of_field ho
  dsimp only [decode0]
  split_ifs with hclear hreturn
  · exact ⟨rfl, hclear.symm⟩
  · exact ⟨rfl, hreturn.symm⟩
  · have h1 : nnnField w ≠ 0x0E0 := fun h => hclear (hw.symm.trans (congrArg (formatA 0x0) h))
    have h2 : nnnField w ≠ 0x0EE := fun h => hreturn (hw.symm.trans (congrArg (formatA 0x0) h))
    exact ⟨by simpa [Instr.wf] using ⟨h1, h2⟩, hw⟩

theorem encodes_decode8 {w : Word} (ho : opField w = 0x8) : Encodes w (decode8 w) := by
  dsimp only [decode8]
  split_ifs with h0 h1 h2 h3 h4 h5 h6 h7 hE
  · exact ⟨rfl, formatXYN_of_fields ho h0⟩
  · exact ⟨rfl, formatXYN_of_fields ho h1⟩
  · exact ⟨rfl, formatXYN_of_fields ho h2⟩
  · exact ⟨rfl, formatXYN_of_fields ho h3⟩
  · exact ⟨rfl, formatXYN_of_fields ho h4⟩
  · exact ⟨rfl, formatXYN_of_fields ho h5⟩
  · exact ⟨rfl, formatXYN_of_fields ho h6⟩
  · exact ⟨rfl, formatXYN_of_fields ho h7⟩
  · exact ⟨rfl, formatXYN_of_fields ho hE⟩
  · have hn := (lowNibble_undefined_iff (nField w)).mp ⟨h0, h1, h2, h3, h4, h5, h6, h7, hE⟩
    exact ⟨(undefinedWord_iff w).mpr (.inr (.inl ⟨ho, hn⟩)), rfl⟩

theorem encodes_decodeE {w : Word} (ho : opField w = 0xE) : Encodes w (decodeE w) := by
  dsimp only [decodeE]
  split_ifs with h9E hA1
  · exact ⟨rfl, formatXK_of_fields ho h9E⟩
  · exact ⟨rfl, formatXK_of_fields ho hA1⟩
  · exact ⟨(undefinedWord_iff w).mpr (by simpa [ho] using ⟨h9E, hA1⟩), rfl⟩

theorem encodes_decodeF {w : Word} (ho : opField w = 0xF) : Encodes w (decodeF w) := by
  dsimp only [decodeF]
  split_ifs with h07 h0A h15 h18 h1E h29 h33 h55 h65
  · exact ⟨rfl, formatXK_of_fields ho h07⟩
  · exact ⟨rfl, formatXK_of_fields ho h0A⟩
  · exact ⟨rfl, formatXK_of_fields ho h15⟩
  · exact ⟨rfl, formatXK_of_fields ho h18⟩
  · exact ⟨rfl, formatXK_of_fields ho h1E⟩
  · exact ⟨rfl, formatXK_of_fields ho h29⟩
  · exact ⟨rfl, formatXK_of_fields ho h33⟩
  · exact ⟨rfl, formatXK_of_fields ho h55⟩
  · exact ⟨rfl, formatXK_of_fields ho h65⟩
  · exact ⟨(undefinedWord_iff w).mpr (by simpa [ho] using ⟨h07, h0A, h15, h18, h1E, h29, h33, h55, h65⟩), rfl⟩

theorem encodes_ite {w : Word} {c : Prop} [Decidable c] {i j : Instr} (hi : c → Encodes w i) (hj : ¬ c → Encodes w j) :
    Encodes w (if c then i else j) := iteInduction hi hj

/-- Nibble by nibble, every leaf of the decoder has tested what the format of its instruction does not carry; 5xyN and
9xyN with N other than 0 are undefined (R77). -/
theorem encodes_decodeWord (w : Word) : Encodes w (decodeWord w) := by
  refine encodes_ite encodes_decode0 fun h0 => ?_
  refine encodes_ite (fun h => ⟨rfl, formatA_of_field h⟩) fun h1 => ?_
  refine encodes_ite (fun h => ⟨rfl, formatA_of_field h⟩) fun h2 => ?_
  refine encodes_ite (fun h => ⟨rfl, formatXK_of_field h⟩) fun h3 => ?_
  refine encodes_ite (fun h => ⟨rfl, formatXK_of_field h⟩) fun h4 => ?_
  refine encodes_ite (fun h => encodes_ite (fun hn => ⟨rfl, formatXYN_of_fields h hn⟩)
    fun hn => ⟨(undefinedWord_iff w).mpr (.inl ⟨h, hn⟩), rfl⟩) fun h5 => ?_
  refine encodes_ite (fun h => ⟨rfl, formatXK_of_field h⟩) fun h6 => ?_
  refine encodes_ite (fun h => ⟨rfl, formatXK_of_field h⟩) fun h7 => ?_
  refine encodes_ite encodes_decode8 fun h8 => ?_
  refine encodes_ite (fun h => encodes_ite (fun hn => ⟨rfl, formatXYN_of_fields h hn⟩)
    fun hn => ⟨(undefinedWord_iff w).mpr (.inr (.inr (.inl ⟨h, hn⟩))), rfl⟩) fun h9 => ?_
  refine encodes_ite (fun h => ⟨rfl, formatA_of_field h⟩) fun hA => ?_
  refine encodes_ite (fun h => ⟨rfl, formatA_of_field h⟩) fun hB => ?_
  refine encodes_ite (fun h => ⟨rfl, formatXK_of_field h⟩) fun hC => ?_
  refine encodes_ite (fun h => ⟨rfl, formatXYN_of_field h⟩) fun hD => ?_
  refine encodes_ite encodes_decodeE fun hE => encodes_decodeF ?_
  simpa only [h0, h1, h2, h3, h4, h5, h6, h7, h8, h9, hA, hB, hC, hD, hE, false_or] using nibble_cases (opField w)

/-- A word decodes to the undefined no-op exactly when rows 1 to 35 all miss it. -/
theorem decodeWord_eq_undef_iff (w : Word) : decodeWord w = .undef w ↔ undefinedWord w = true := by
  constructor
  · intro h
    obtain ⟨hwf, -⟩ := encodes_decodeWord w
    rwa [h] at hwf
  · exact fun h => decodeWord_undef w (forall_hits_false_of_undefinedWord h)

/-! ### The map from top to bottom -/

/-- No word matches both rows: they ask for different bits under the bits that both mask. -/
def Row.Disjoint (r q : Row) : Prop := r.pattern &&& q.mask ≠ q.pattern &&& r.mask

theorem Row.Disjoint.not_hits {r q : Row} {w : Word} (h : r.Disjoint q) (hr : r.hits w = true) : ¬ q.hits w = true := by
  intro hq
  rw [hits_iff] at hr hq
  exact h (by rw [← hr, ← hq]; ac_rfl)

/-- Among pairwise disjoint rows the one that matches is the first one that matches. -/
theorem find?_eq_of_disjoint {l : List Row} {r : Row} {w : Word} (hl : l.Pairwise Row.Disjoint) (hmem : r ∈ l)
    (hr : r.hits w = true) : l.find? (fun r => r.hits w) = some r := by
  obtain ⟨q, hq⟩ := Option.isSome_iff_exists.mp (List.find?_isSome (p := fun r : Row => r.hits w).mpr ⟨r, hmem, hr⟩)
  have hqr : q = r := by
    by_contra hne
    have : Std.Symm Row.Disjoint := ⟨fun _ _ => Ne.symm⟩
    have hhit : q.hits w = true := List.find?_some (p := fun r : Row => r.hits w) hq
    exact (hl.forall (List.mem_of_find?_eq_some hq) hmem hne).not_hits hhit hr
  rw [hq, hqr]

/-- Rows 3 to 35 are pairwise disjoint; only 0nnn has words in common with another row, with 00E0 and 00EE. -/
theorem disjoint_rows : (definedRows.drop 2).Pairwise Row.Disjoint := by
  unfold Row.Disjoint; decide

/-- The encoding of an instruction lies in its row. -/
theorem row_hits_encode (i : Instr) : i.row.hits (encode i) = true := by
  cases i with
  | op00E0 => exact Laws.EncodeInRow.op00E0
  | op00EE => exact Laws.EncodeInRow.op00EE
  | op1nnn nnn => exact Laws.EncodeInRow.op1nnn nnn
  | op2nnn nnn => exact Laws.EncodeInRow.op2nnn nnn
  | op3xkk x kk => exact Laws.EncodeInRow.op3xkk x kk
  | op4xkk x kk => exact Laws.EncodeInRow.op4xkk x kk
  | op5xy0 x y => exact Laws.EncodeInRow.op5xy0 x y
  | op6xkk x kk => exact Laws.EncodeInRow.op6xkk x kk
  | op7xkk x kk => exact Laws.EncodeInRow.op7xkk x kk
  | op8xy0 x y => exact Laws.EncodeInRow.op8xy0 x y
  | op8xy1 x y => exact Laws.EncodeInRow.op8xy1 x y
  | op8xy2 x y => exact Laws.EncodeInRow.op8xy2 x y
  | op8xy3 x y => exact Laws.EncodeInRow.op8xy3 x y
  | op8xy4 x y => exact Laws.EncodeInRow.op8xy4 x y
  | op8xy5 x y => exact Laws.EncodeInRow.op8xy5 x y
  | op8xy6 x y => exact Laws.EncodeInRow.op8xy6 x y
  | op8xy7 x y => exact Laws.EncodeInRow.op8xy7 x y
  | op8xyE x y => exact Laws.EncodeInRow.op8xyE x y
  | op9xy0 x y => exact Laws.EncodeInRow.op9xy0 x y
  | opAnnn nnn => exact Laws.EncodeInRow.opAnnn nnn
  | opBnnn nnn => exact Laws.EncodeInRow.opBnnn nnn
  | opCxkk x kk => exact Laws.EncodeInRow.opCxkk x kk
  | opDxyn x y n => exact Laws.EncodeInRow.opDxyn x y n
  | opEx9E x => exact Laws.EncodeInRow.opEx9E x
  | opExA1 x => exact Laws.EncodeInRow.opExA1 x
  | opFx07 x => exact Laws.EncodeInRow.opFx07 x
  | opFx0A x => exact Laws.EncodeInRow.opFx0A x
  | opFx15 x => exact Laws.EncodeInRow.opFx15 x
  | opFx18 x => exact Laws.EncodeInRow.opFx18 x
  | opFx1E x => exact Laws.EncodeInRow.opFx1E x
  | opFx29 x => exact Laws.EncodeInRow.opFx29 x
  | opFx33 x => exact Laws.EncodeInRow.opFx33 x
  | opFx55 x => exact Laws.EncodeInRow.opFx55 x
  | opFx65 x => exact Laws.EncodeInRow.opFx65 x
  | op0nnn nnn => exact Laws.EncodeInRow.op0nnn nnn
  | undef w => exact Laws.EncodeInRow.undef w

/-- A row from 3 on that matches a word other than those of 00E0 and 00EE is the first row of the map to do so. -/
theorem find?_opcodeMap {r : Row} {w : Word} (hclear : w ≠ 0x00E0) (hreturn : w ≠ 0x00EE)
    (hmem : r ∈ definedRows.drop 2) (hr : r.hits w = true) : opcodeMap.find? (fun r => r.hits w) = some r := by
  have hmap : opcodeMap = ⟨0xFFFF, 0x00E0⟩ :: ⟨0xFFFF, 0x00EE⟩ :: (definedRows.drop 2 ++ [⟨0x0000, 0x0000⟩]) := rfl
  have h1 : Row.hits ⟨0xFFFF, 0x00E0⟩ w = false := by rw [hits_FFFF, decide_eq_false hclear]
  have h2 : Row.hits ⟨0xFFFF, 0x00EE⟩ w = false := by rw [hits_FFFF, decide_eq_false hreturn]
  rw [hmap]
  simp only [List.find?_cons, h1, h2, List.find?_append, find?_eq_of_disjoint disjoint_rows hmem hr, Option.some_or]

/-- Where rows 1 to 35 all miss, the last row is the first one that matches. -/
theorem find?_opcodeMap_undefined {w : Word} (h : undefinedWord w = true) :
    opcodeMap.find? (fun r => r.hits w) = some ⟨0x0000, 0x0000⟩ := by
  have hnone : definedRows.find? (fun r => r.hits w) = none :=
    List.find?_eq_none.mpr fun r hr => by simp [forall_hits_false_of_undefinedWord h r hr]
  have hlast : Row.hits ⟨0x0000, 0x0000⟩ w = true := Laws.EncodeInRow.undef w
  simp only [opcodeMap, List.find?_append, hnone, Option.none_or, List.find?_cons, hlast]

/-! ### Obligations -/

/-- Settles O1: the fields of each format give back its operands, row by row; the byte decoder puts the word together
again. -/
theorem decodeOfEncodeIsTheInstruction : Obligations.DecodeOfEncodeIsTheInstruction := by
  intro i rest hwf
  have hword := decodeWord_encode i hwf
  exact ⟨hword, by rw [encodeBytes, decode_bytes_append, hword]⟩

/-- Settles O2: each leaf of the decoder has tested what the format of its instruction does not carry. -/
theorem encodeOfDecodeIsTheWord : Obligations.EncodeOfDecodeIsTheWord := encodes_decodeWord

/-- Settles O3: the row of the decoded instruction matches the word, and no row before it does, since rows 3 to 35 are
pairwise disjoint. -/
theorem decodePicksFirstMatchingRow : Obligations.DecodePicksFirstMatchingRow := by
  intro w
  by_cases hclear : w = 0x00E0
  · subst hclear; decide
  by_cases hreturn : w = 0x00EE
  · subst hreturn; decide
  obtain ⟨hwf, hw⟩ := encodes_decodeWord w
  have hhit := row_hits_encode (decodeWord w)
  rw [hw] at hhit
  generalize decodeWord w = i at hwf hw hhit ⊢
  cases i with
  | op00E0 => exact absurd hw.symm hclear
  | op00EE => exact absurd hw.symm hreturn
  | undef u => exact find?_opcodeMap_undefined (hw ▸ hwf)
  | _ => exact find?_opcodeMap hclear hreturn (by simp [Instr.row, definedRows, rowsTo9, rowsFromA]) hhit

/-- Settles O4: a word decodes to the undefined no-op exactly when rows 1 to 35 all miss it, and those words are the
five groups. -/
theorem undefinedWordsAreTheListedOnes : Obligations.UndefinedWordsAreTheListedOnes := by
  intro w
  refine ⟨?_, fun h s => by rw [h]; exact Machine.exec_undef w s⟩
  rw [decodeWord_eq_undef_iff, undefinedWord_iff]
  simp only [List.mem_cons, List.not_mem_nil, or_false, ne_eq, nField_eq_iff]
  rfl

/-- Settles O5: each word is decoded by evaluation. -/
theorem sampleWordsDecode : Obligations.SampleWordsDecode := by
  unfold Obligations.SampleWordsDecode; decide

end Sys2Proof
end

section
/-!
PROOFS. The timer quantizer (60_exceptions.md): how many ticks an accumulator holds, the loop of R191 in closed form,
and the obligations O36 to O40.
-/

namespace Sys2Proof.Machine

/-! ### Ticks in an accumulator -/

/-- How many ticks the loop of R191 takes from the time `a`: it stops at the first remainder of at most one tick. -/
def ticksIn (a : Rat) : Nat := (⌈60 * a⌉ - 1).toNat

theorem ticksIn_eq_zero {a : Rat} (h : a ≤ 1 / 60) : ticksIn a = 0 := by
  have : ⌈60 * a⌉ ≤ 1 := Int.ceil_le.mpr (by push_cast; linarith)
  unfold ticksIn; omega

theorem ticksIn_eq_succ {a : Rat} (h : 1 / 60 < a) : ticksIn a = ticksIn (a - 1 / 60) + 1 := by
  have hceil : ⌈60 * (a - 1 / 60)⌉ = ⌈60 * a⌉ - 1 := by
    rw [← Int.ceil_sub_one]; congr 1; ring
  have : 1 < ⌈60 * a⌉ := Int.lt_ceil.mpr (by push_cast; linarith)
  unfold ticksIn; rw [hceil]; omega

/-- What is left is at most one tick. -/
theorem sub_ticksIn_le (a : Rat) : a - (ticksIn a : Rat) / 60 ≤ 1 / 60 := by
  have hint : ⌈60 * a⌉ ≤ (ticksIn a : Int) + 1 := by unfold ticksIn; omega
  have hrat : 60 * a ≤ (ticksIn a : Rat) + 1 := by exact_mod_cast Int.ceil_le.mp hint
  linarith

/-- The ticks taken never use up the time. -/
theorem sub_ticksIn_pos {a : Rat} (h : 0 < a) : 0 < a - (ticksIn a : Rat) / 60 := by
  have hceil : 0 < ⌈60 * a⌉ := Int.ceil_pos.mpr (by linarith)
  have hint : (ticksIn a : Int) < ⌈60 * a⌉ := by unfold ticksIn; omega
  have hrat : (ticksIn a : Rat) < 60 * a := by exact_mod_cast Int.lt_ceil.mp hint
  linarith

/-! ### The loop in closed form -/

/-- With turns enough, the loop counts down once for each tick in the accumulator and takes those ticks from it. -/
theorem drain_closed (n : Nat) (t : Byte) (acc : Time) (hn : 60 * acc.val < n) :
    (drain n t acc).1.toNat = t.toNat - ticksIn acc.val ∧
    (drain n t acc).2.val = acc.val - (ticksIn acc.val : Rat) / 60 := by
  induction n generalizing t acc with
  | zero =>
    have := acc.property
    push_cast at hn
    linarith
  | succ n ih =>
    by_cases h : acc.val ≤ 1 / 60
    · simp [drain_stop _ t acc h, ticksIn_eq_zero h]
    · have hlt : 1 / 60 < acc.val := not_le.mp h
      have hsub : (subTime acc tick).val = acc.val - 1 / 60 := subTime_val acc tick hlt.le
      obtain ⟨htimer, hacc⟩ := ih (countDown t) (subTime acc tick) (by rw [hsub]; push_cast at hn; linarith)
      rw [drain_turn n t acc hlt, htimer, hacc, countDown_toNat, hsub, ticksIn_eq_succ hlt]
      exact ⟨by omega, by push_cast; ring⟩

/-- A call on a running timer, in closed form (R192). -/
theorem quantize_closed (t : Byte) (acc dt : Time) (ht : t ≠ 0) :
    (quantize t acc dt).1.toNat = t.toNat - ticksIn (acc.val + dt.val) ∧
    (quantize t acc dt).2.val = acc.val + dt.val - (ticksIn (acc.val + dt.val) : Rat) / 60 := by
  rw [quantize_running t acc dt ht]
  exact drain_closed _ t (addTime acc dt) (turnsFor_enough _)

theorem quantize_acc_le {acc : Time} (t : Byte) (dt : Time) (h : acc.val ≤ 1 / 60) :
    (quantize t acc dt).2.val ≤ 1 / 60 := by
  by_cases ht : t = 0
  · rw [ht, quantize_zero]; exact h
  · rw [(quantize_closed t acc dt ht).2]; exact sub_ticksIn_le _

theorem quantize_timer_le (t : Byte) (acc dt : Time) : (quantize t acc dt).1.toNat ≤ t.toNat := by
  by_cases ht : t = 0
  · rw [ht, quantize_zero]
  · rw [(quantize_closed t acc dt ht).1]; exact Nat.sub_le _ _

/-! ### Runs of calls -/

/-- A call of one tick on an accumulator that holds exactly one tick counts down once and leaves it there. -/
theorem quantize_tick {t : Byte} {acc : Time} (hacc : acc.val = 1 / 60) :
    (quantize t acc tick).1.toNat = t.toNat - 1 ∧ (quantize t acc tick).2.val = 1 / 60 := by
  by_cases ht : t = 0
  · rw [ht, quantize_zero]; exact ⟨rfl, hacc⟩
  · have hticks : ticksIn (acc.val + tick.val) = 1 := by
      rw [hacc, tick_val, ticksIn_eq_succ (by norm_num), ticksIn_eq_zero (by norm_num)]
    obtain ⟨htimer, hleft⟩ := quantize_closed t acc tick ht
    rw [htimer, hleft, hticks, hacc, tick_val]
    exact ⟨rfl, by norm_num⟩

/-- A timer at 0 stays 0 over any run of calls. -/
theorem foldl_quantize_zero (dts : List Time) (acc : Time) :
    dts.foldl (fun p dt => quantize p.1 p.2 dt) ((0 : Byte), acc) = (0, acc) := by
  induction dts with
  | nil => rfl
  | cons dt rest ih => rw [List.foldl_cons, quantize_zero, ih]

/-- A call that leaves the timer running takes exactly the ticks it counts. -/
theorem counts_of_running {t : Byte} {acc dt : Time} (ht : t ≠ 0) (hrun : (quantize t acc dt).1 ≠ 0) :
    (t.toNat : Rat) - ((quantize t acc dt).1.toNat : Rat) = 60 * (acc.val + dt.val - (quantize t acc dt).2.val) := by
  obtain ⟨htimer, hleft⟩ := quantize_closed t acc dt ht
  have hpos : (quantize t acc dt).1.toNat ≠ 0 := fun h => hrun (BitVec.eq_of_toNat_eq h)
  have hle : ticksIn (acc.val + dt.val) ≤ t.toNat := by omega
  rw [htimer, hleft, Nat.cast_sub hle]; ring

/-! ### Obligations -/

/-- Settles O36: by induction on the turns of the loop, which are enough for it to end by its own test. -/
theorem quantizeMeetsItsClosedForm : Obligations.QuantizeMeetsItsClosedForm := ⟨quantize_zero, quantize_closed⟩

/-- Settles O37: what the closed form leaves lies above 0 and within one tick. -/
theorem accumulatorStaysWithinOneTick : Obligations.AccumulatorStaysWithinOneTick := fun t acc dt h =>
  ⟨quantize_acc_le t dt h, fun ht ha => by rw [(quantize_closed t acc dt ht).2]; exact sub_ticksIn_pos ha,
    quantize_timer_le t acc dt⟩

/-- Settles O38, by induction on the calls: the first one fills the accumulator, every later one counts down once. -/
theorem oneTickPerCallAfterTheFirst : Obligations.OneTickPerCallAfterTheFirst := by
  intro t c ht
  dsimp only
  induction c with
  | zero =>
    obtain ⟨htimer, hacc⟩ := quantize_closed t ⟨0, Rat.le_refl⟩ tick ht
    have hticks : ticksIn (0 + tick.val) = 0 := ticksIn_eq_zero (by norm_num)
    rw [hticks] at htimer hacc
    exact ⟨htimer, by rw [Function.iterate_one, hacc, tick_val]; norm_num⟩
  | succ c ih =>
    obtain ⟨htimer, hacc⟩ := ih
    rw [Function.iterate_succ_apply']
    obtain ⟨htimer', hacc'⟩ := quantize_tick (t := _) hacc
    exact ⟨by rw [htimer', htimer]; omega, hacc'⟩

/-- Settles O39, by induction on the calls: as the timer is above 0 at the end it was so all along, and each call took
exactly the ticks it counted. -/
theorem countsMatchElapsedTime : Obligations.CountsMatchElapsedTime := by
  intro dts
  induction dts with
  | nil => intro t acc after hafter; simp [after]
  | cons dt rest ih =>
    intro t acc after hafter
    have hfold : after = rest.foldl (fun p dt => quantize p.1 p.2 dt) (quantize t acc dt) := rfl
    have ht : t ≠ 0 := by
      rintro rfl
      exact hafter (by rw [hfold, quantize_zero, foldl_quantize_zero])
    have hrun : (quantize t acc dt).1 ≠ 0 := fun h0 => hafter (by
      rw [hfold, ← Prod.mk.eta (p := quantize t acc dt), h0, foldl_quantize_zero])
    have hrest := ih (quantize t acc dt).1 (quantize t acc dt).2 hafter
    have hcall := counts_of_running ht hrun
    rw [hfold, List.map_cons, List.sum_cons]
    linarith

/-- Settles O40: by the definition of the advance. -/
theorem timersAdvanceIndependently : Obligations.TimersAdvanceIndependently := fun _ _ => ⟨rfl, rfl, rfl⟩

end Sys2Proof.Machine
end

section
/-!
PROOFS. Calls, returns and jumps (41_control_flow.md): what their arms answer, and the obligations O7 to O10 and O13.
-/

namespace Sys2Proof.Machine

/-! ### The arms of the calls, returns and jumps -/

theorem exec_op00EE_of_nil {s : State} (h : s.stack = []) : exec .op00EE s = .next s := by
  show exec00EE s = _
  rw [exec00EE, h]

theorem exec_op00EE_of_cons {s : State} {top : Word} {rest : List Word} (h : s.stack = top :: rest) :
    exec .op00EE s = .next (setPc (setStack s rest) top) := by
  show exec00EE s = _
  rw [exec00EE, h]

theorem exec_op1nnn (nnn : BitVec 12) (s : State) : exec (.op1nnn nnn) s = .next (setPc s (zextAddr nnn)) := rfl

/-- The stack has no limit at the spec's default (D14), so the call never faults. -/
theorem exec_op2nnn (nnn : BitVec 12) (s : State) :
    exec (.op2nnn nnn) s = .next (setPc (setStack s (s.pc :: s.stack)) (zextAddr nnn)) := rfl

theorem exec_opBnnn (nnn : BitVec 12) (s : State) :
    exec (.opBnnn nnn) s = .next (setPc s (zextAddr nnn + zextByte (getV s 0))) := rfl

/-! ### Addresses as numbers -/

@[simp] theorem zextAddr_toNat (nnn : BitVec 12) : (zextAddr nnn).toNat = nnn.toNat := by
  rw [zextAddr, BitVec.toNat_setWidth, Nat.mod_eq_of_lt (by omega)]

@[simp] theorem zextByte_toNat (b : Byte) : (zextByte b).toNat = b.toNat := by
  rw [zextByte, BitVec.toNat_setWidth, Nat.mod_eq_of_lt (by omega)]

/-- The target of Bnnn is the natural sum: it does not reach 2^16 (R108). -/
theorem zextAddr_add_zextByte_toNat (nnn : BitVec 12) (b : Byte) :
    (zextAddr nnn + zextByte b).toNat = nnn.toNat + b.toNat := by
  rw [BitVec.toNat_add, zextAddr_toNat, zextByte_toNat]; omega

/-! ### The effect of a write of `pc` and the stack -/

/-- A write of the stack and of `pc` leaves every register, memory and every other field as they were. -/
theorem onlyPcAndStack_setPc_setStack (s : State) (l : List Word) (w : Word) :
    OnlyPcAndStack s (setPc (setStack s l) w) :=
  ⟨fun _ _ => rfl, fun _ => rfl, rfl⟩

/-! ### Obligations -/

/-- Settles O7: the arm splits on the stack. -/
theorem returnPopsTheCallStack : Obligations.ReturnPopsTheCallStack :=
  ⟨decodeWord_op00EE, fun _ h => exec_op00EE_of_nil h,
    fun s top rest h => ⟨_, exec_op00EE_of_cons h, rfl, rfl, onlyPcAndStack_setPc_setStack s rest top⟩⟩

/-- Settles O8: one write of `pc`. -/
theorem jumpSetsPc : Obligations.JumpSetsPc := fun nnn s =>
  ⟨decodeWord_op1nnn nnn, _, exec_op1nnn nnn s, zextAddr_toNat nnn, onlyPc_setPc s _⟩

/-- Settles O9: one write of the stack and of `pc`; the limit decides only whether it is reached. -/
theorem callPushesReturnAddress : Obligations.CallPushesReturnAddress := by
  intro nnn s
  refine ⟨decodeWord_op2nnn nnn, ⟨_, exec_op2nnn nnn s, rfl, zextAddr_toNat nnn, onlyPcAndStack_setPc_setStack s _ _⟩,
    fun L => ?_⟩
  simp only [callWithLimit, stackFull_some, decide_eq_true_eq, exec_op2nnn]

/-- Settles O10: the return pops the address that the call pushed, and what it leaves is the state before the call. -/
theorem callThenReturnRestores : Obligations.CallThenReturnRestores := fun nnn s =>
  ⟨_, exec_op2nnn nnn s, exec_op00EE_of_cons (setStack_stack s (s.pc :: s.stack))⟩

/-- Settles O13: one write of `pc`, of a sum of a 12-bit and an 8-bit number. -/
theorem jumpWithOffsetAddsV0 : Obligations.JumpWithOffsetAddsV0 := by
  intro nnn s
  have hsum := zextAddr_add_zextByte_toNat nnn (getV s 0)
  exact ⟨decodeWord_opBnnn nnn, _, exec_opBnnn nnn s, hsum, by rw [setPc_pc, hsum]; omega, onlyPc_setPc s _⟩

end Sys2Proof.Machine
end

section
/-!
PROOFS. Arithmetic with a flag, shifts and the random byte (42_load_alu.md): what their arms answer, and the
obligations O17 to O20.
-/

namespace Sys2Proof.Machine

/-! ### The arms of the flag-writing operations and of the random byte -/

theorem exec_op8xy4 (x y : Reg) (s : State) :
    exec (.op8xy4 x y) s = .next (setVF (setV s x (getV s x + getV s y)) (carryOut (getV s x) (getV s y))) := rfl

theorem exec_op8xy5 (x y : Reg) (s : State) :
    exec (.op8xy5 x y) s = .next (setVF (setV s x (getV s x - getV s y)) (notBorrow (getV s x) (getV s y))) := rfl

theorem exec_op8xy7 (x y : Reg) (s : State) :
    exec (.op8xy7 x y) s = .next (setVF (setV s x (getV s y - getV s x)) (notBorrow (getV s y) (getV s x))) := rfl

/-- The state after an operation that writes VF first and then, from a register read again, `V[x]` (R129, R131). -/
def flagThenShift (s : State) (x : Reg) (flag : Byte) (shift : Byte → Byte) : State :=
  setV (setVF s flag) x (shift (getV (setVF s flag) x))

theorem exec_op8xy6 (x y : Reg) (s : State) :
    exec (.op8xy6 x y) s = .next (flagThenShift s x (bitOutRight (getV s x)) (· >>> 1)) := rfl

theorem exec_op8xyE (x y : Reg) (s : State) :
    exec (.op8xyE x y) s = .next (flagThenShift s x (bitOutLeft (getV s x)) (· <<< 1)) := rfl

theorem exec_opCxkk (x : Reg) (kk : Byte) (s : State) :
    exec (.opCxkk x kk) s = .next (countDraw (setV s x (Config.randomByte s.draws &&& kk))) := rfl

/-! ### The effect of a result and a flag -/

theorem getV_setVF_other (s : State) {q : Reg} (b : Byte) (h : q ≠ 15) : getV (setVF s b) q = getV s q :=
  getV_setV_other s b h

/-- The result stands in `V[x]` unless `x` is VF. -/
theorem getV_result_then_flag (s : State) {x : Reg} (result flag : Byte) (hx : x ≠ 15) :
    getV (setVF (setV s x result) flag) x = result := by
  rw [getV_setVF_other _ _ hx, getV_setV_same]

/-- A register write and a flag write leave the other registers, memory and every other field as they were. -/
theorem onlyRegisters_result_then_flag (s : State) (x : Reg) (result flag : Byte) :
    OnlyRegisters (fun r => r = x ∨ r = 15) s (setVF (setV s x result) flag) := by
  refine ⟨fun r hr => ?_, fun _ => rfl, rfl⟩
  obtain ⟨hx, hvf⟩ := not_or.mp hr
  rw [getV_setVF_other _ _ hvf, getV_setV_other s _ hx]

theorem onlyRegisters_flagThenShift (s : State) (x : Reg) (flag : Byte) (shift : Byte → Byte) :
    OnlyRegisters (fun r => r = x ∨ r = 15) s (flagThenShift s x flag shift) := by
  refine ⟨fun r hr => ?_, fun _ => rfl, rfl⟩
  obtain ⟨hx, hvf⟩ := not_or.mp hr
  rw [flagThenShift, getV_setV_other _ _ hx, getV_setVF_other s _ hvf]

/-- Where `x` is not VF, the old `V[x]` is shifted and the flag stays. -/
theorem getV_flagThenShift (s : State) {x : Reg} (flag : Byte) (shift : Byte → Byte) (hx : x ≠ 15) :
    getV (flagThenShift s x flag shift) x = shift (getV s x) ∧ getV (flagThenShift s x flag shift) 15 = flag := by
  have h1 : getV (setVF s flag) x = getV s x := getV_setVF_other s flag hx
  exact ⟨by rw [flagThenShift, getV_setV_same, h1],
    by rw [flagThenShift, getV_setV_other _ _ (Ne.symm hx)]; exact getV_setVF_same s flag⟩

/-- Where `x` is VF, the flag itself is shifted (D13). -/
theorem getV_flagThenShift_vf (s : State) (flag : Byte) (shift : Byte → Byte) :
    getV (flagThenShift s 15 flag shift) 15 = shift flag := by
  rw [flagThenShift, getV_setV_same]; exact congrArg shift (getV_setVF_same s flag)

/-! ### Flags and shifts as numbers -/

theorem carryOut_eq (a b : Byte) : carryOut a b = if 256 ≤ a.toNat + b.toNat then 0x01 else 0x00 := by
  simp only [carryOut, flagByte, decide_eq_true_eq]

theorem notBorrow_eq (a b : Byte) : notBorrow a b = if b.toNat ≤ a.toNat then 0x01 else 0x00 := by
  simp only [notBorrow, flagByte, decide_eq_true_eq]

theorem byte_sub_toNat (a b : Byte) : (a - b).toNat = (a.toNat + 256 - b.toNat) % 256 := by
  rw [BitVec.toNat_sub]; congr 1; omega

theorem bitOutRight_toNat (a : Byte) : (bitOutRight a).toNat = a.toNat % 2 := by
  rw [bitOutRight, BitVec.toNat_and]; exact Nat.and_one_is_mod _

theorem bitOutLeft_toNat (a : Byte) : (bitOutLeft a).toNat = a.toNat / 128 := by
  have h : (a >>> 7).toNat = a.toNat / 128 := by rw [BitVec.toNat_ushiftRight, Nat.shiftRight_eq_div_pow]
  rw [bitOutLeft, BitVec.toNat_and, h, show (0x01 : Byte).toNat = 1 from rfl, Nat.and_one_is_mod]; omega

theorem shiftRight_one_toNat (a : Byte) : (a >>> 1).toNat = a.toNat / 2 := by
  rw [BitVec.toNat_ushiftRight, Nat.shiftRight_eq_div_pow, pow_one]

theorem shiftLeft_one_toNat (a : Byte) : (a <<< 1).toNat = a.toNat * 2 % 256 := by
  rw [BitVec.toNat_shiftLeft, Nat.shiftLeft_eq, pow_one]

/-- The bit shifted out to the right is lost when it is shifted right itself. -/
theorem bitOutRight_shifted (a : Byte) : bitOutRight a >>> 1 = 0x00 := by
  apply BitVec.eq_of_toNat_eq
  rw [shiftRight_one_toNat, bitOutRight_toNat]
  simp

theorem bitOutLeft_shifted (a : Byte) : bitOutLeft a <<< 1 = if 0x80 ≤ a.toNat then 0x02 else 0x00 := by
  apply BitVec.eq_of_toNat_eq
  rw [shiftLeft_one_toNat, bitOutLeft_toNat]
  split
  · simp; omega
  · simp; omega

/-! ### Obligations -/

/-- Settles O17: a register write of the sum, then one of the carry. -/
theorem addLeavesSumAndCarry : Obligations.AddLeavesSumAndCarry := fun x y s =>
  ⟨decodeWord_op8xy4 x y, _, exec_op8xy4 x y s,
    fun hx => by rw [getV_result_then_flag s _ _ hx, BitVec.toNat_add],
    (getV_setVF_same _ _).trans (carryOut_eq _ _), onlyRegisters_result_then_flag s x _ _⟩

/-- Settles O18: a register write of the difference, then one of the not-borrow. -/
theorem subtractLeavesDifferenceAndNotBorrow : Obligations.SubtractLeavesDifferenceAndNotBorrow := fun x y s =>
  ⟨decodeWord_op8xy5 x y, decodeWord_op8xy7 x y,
    ⟨_, exec_op8xy5 x y s, fun hx => by rw [getV_result_then_flag s _ _ hx, byte_sub_toNat],
      (getV_setVF_same _ _).trans (notBorrow_eq _ _), onlyRegisters_result_then_flag s x _ _⟩,
    ⟨_, exec_op8xy7 x y s, fun hx => by rw [getV_result_then_flag s _ _ hx, byte_sub_toNat],
      (getV_setVF_same _ _).trans (notBorrow_eq _ _), onlyRegisters_result_then_flag s x _ _⟩⟩

/-- Settles O19: a write of the bit shifted out, then one of the register shifted; for `x = 15` the bit itself is
shifted. -/
theorem shiftsReportTheBitShiftedOut : Obligations.ShiftsReportTheBitShiftedOut := by
  intro x y s
  refine ⟨decodeWord_op8xy6 x y, decodeWord_op8xyE x y, fun z => ⟨rfl, rfl⟩,
    ⟨_, exec_op8xy6 x y s, fun hx => ?_, ?_, onlyRegisters_flagThenShift s x _ _⟩,
    ⟨_, exec_op8xyE x y s, fun hx => ?_, ?_, onlyRegisters_flagThenShift s x _ _⟩⟩
  · obtain ⟨hresult, hflag⟩ := getV_flagThenShift s (bitOutRight (getV s x)) (· >>> 1) hx
    rw [hresult, hflag]
    exact ⟨shiftRight_one_toNat _, bitOutRight_toNat _⟩
  · rintro rfl
    rw [getV_flagThenShift_vf]
    exact bitOutRight_shifted _
  · obtain ⟨hresult, hflag⟩ := getV_flagThenShift s (bitOutLeft (getV s x)) (· <<< 1) hx
    rw [hresult, hflag]
    exact ⟨shiftLeft_one_toNat _, bitOutLeft_toNat _⟩
  · rintro rfl
    rw [getV_flagThenShift_vf]
    exact bitOutLeft_shifted _

/-- Settles O20: one register write, of a byte masked bit by bit, and one draw counted. -/
theorem randomByteIsMasked : Obligations.RandomByteIsMasked := by
  intro x kk s
  have hx : getV (countDraw (setV s x (Config.randomByte s.draws &&& kk))) x = Config.randomByte s.draws &&& kk :=
    getV_setV_same s x _
  refine ⟨decodeWord_opCxkk x kk, _, exec_opCxkk x kk s, hx, rfl, fun k hk => ?_, fun hkk => ?_,
    fun r hr => getV_setV_other s _ hr, fun _ => rfl, rfl⟩
  · rw [hx, BitVec.getLsbD_and, Bool.and_eq_true] at hk
    exact hk.2
  · rw [hx, hkk]; exact BitVec.and_zero

end Sys2Proof.Machine
end

section
/-!
PROOFS. The index register and memory (43_index_memory.md): what their arms answer, blocks of memory through `I`, and
the obligations O21 to O27.
-/

namespace Sys2Proof.Machine

/-! ### The arms of the index register and memory -/

theorem exec_opAnnn (nnn : BitVec 12) (s : State) : exec (.opAnnn nnn) s = .next (setIndex s (zextAddr nnn)) := rfl

theorem exec_opFx1E (x : Reg) (s : State) :
    exec (.opFx1E x) s = .next (setIndex s (s.index + zextByte (getV s x))) := rfl

theorem exec_opFx29 (x : Reg) (s : State) :
    exec (.opFx29 x) s = .next (setIndex s (fontIndexBase + glyphOffset (getV s x))) := rfl

/-- The state after Fx33, where its three bytes exist. -/
def afterFx33 (s : State) (x : Reg) : State :=
  setMem s (writeBlock s.mem s.index.toNat (decimalDigits (getV s x)))

/-- The state after Fx55, where its block exists. -/
def afterFx55 (s : State) (x : Reg) : State :=
  setIndex (setMem s (writeBlock s.mem s.index.toNat (registersUpTo s x))) (indexAfter s x)

/-- The state after Fx65, where its block exists. -/
def afterFx65 (s : State) (x : Reg) : State :=
  setIndex (setRegisters s (registersFrom s s.index.toNat x)) (indexAfter s x)

theorem exec_opFx33 (x : Reg) (s : State) :
    exec (.opFx33 x) s = ifInRange s.index.toNat 3 (.next (afterFx33 s x)) := rfl

theorem exec_opFx55 (x : Reg) (s : State) :
    exec (.opFx55 x) s = ifInRange s.index.toNat (x.val + 1) (.next (afterFx55 s x)) := rfl

theorem exec_opFx65 (x : Reg) (s : State) :
    exec (.opFx65 x) s = ifInRange s.index.toNat (x.val + 1) (.next (afterFx65 s x)) := rfl

/-- Fx33 completes exactly where its three bytes exist. -/
theorem exec_opFx33_ok (x : Reg) {s : State} (h : s.index.toNat + 2 < 0x1000) :
    exec (.opFx33 x) s = .next (afterFx33 s x) := by
  rw [exec_opFx33, ifInRange_ok _ _ _ (.inr h)]

theorem exec_opFx33_fault (x : Reg) {s : State} (h : 0x1000 ≤ s.index.toNat + 2) :
    exec (.opFx33 x) s = .fault (.addressOutOfRange (max s.index.toNat 0x1000)) := by
  rw [exec_opFx33, ifInRange_fault _ _ _ (by decide) (Nat.lt_succ_of_le h)]

/-- Fx55 and Fx65 complete exactly where their block exists. -/
theorem exec_opFx55_ok {x : Reg} {s : State} (h : s.index.toNat + x.val < 0x1000) :
    exec (.opFx55 x) s = .next (afterFx55 s x) := by
  rw [exec_opFx55, ifInRange_ok _ _ _ (.inr h)]

theorem exec_opFx55_fault {x : Reg} {s : State} (h : 0x1000 ≤ s.index.toNat + x.val) :
    exec (.opFx55 x) s = .fault (.addressOutOfRange (max s.index.toNat 0x1000)) := by
  rw [exec_opFx55, ifInRange_fault _ _ _ (Nat.succ_ne_zero _) (Nat.lt_succ_of_le h)]

theorem exec_opFx65_ok {x : Reg} {s : State} (h : s.index.toNat + x.val < 0x1000) :
    exec (.opFx65 x) s = .next (afterFx65 s x) := by
  rw [exec_opFx65, ifInRange_ok _ _ _ (.inr h)]

theorem exec_opFx65_fault {x : Reg} {s : State} (h : 0x1000 ≤ s.index.toNat + x.val) :
    exec (.opFx65 x) s = .fault (.addressOutOfRange (max s.index.toNat 0x1000)) := by
  rw [exec_opFx65, ifInRange_fault _ _ _ (Nat.succ_ne_zero _) (Nat.lt_succ_of_le h)]

/-! ### The effect of a write of `I`, and of a block -/

/-- A write of `I` leaves every register, memory and every other field as they were. -/
theorem onlyIndex_setIndex (s : State) (w : Word) : OnlyIndex s (setIndex s w) :=
  ⟨fun r _ => getV_setIndex s w r, fun a => by rw [setIndex_mem], rfl⟩

/-- A write of memory leaves every register and every other field as they were. -/
theorem onlyMemory_setMem (s : State) (m : Memory) :
    SameRegistersBut (fun _ => False) s (setMem s m) ∧ setMem s m = { s with mem := (setMem s m).mem } :=
  ⟨fun _ _ => rfl, rfl⟩

/-- So does one of memory and of `I`. -/
theorem onlyMemoryAndIndex_setIndex_setMem (s : State) (m : Memory) (w : Word) :
    SameRegistersBut (fun _ => False) s (setIndex (setMem s m) w) ∧
    setIndex (setMem s m) w =
      { s with mem := (setIndex (setMem s m) w).mem, index := (setIndex (setMem s m) w).index } :=
  ⟨fun _ _ => rfl, rfl⟩

/-- A write of the registers and of `I` leaves memory and every other field as they were. -/
theorem onlyRegistersAndIndex_setIndex_setRegisters (s : State) (l : Vector Byte 16) (w : Word) :
    SameMemory s (setIndex (setRegisters s l) w) ∧
    setIndex (setRegisters s l) w =
      { s with v := (setIndex (setRegisters s l) w).v, index := (setIndex (setRegisters s l) w).index } :=
  ⟨fun _ => rfl, rfl⟩

theorem indexAfter_toNat (s : State) (x : Reg) :
    (indexAfter s x).toNat = (s.index.toNat + (x.val + 1)) % 65536 := by
  rw [indexAfter, BitVec.toNat_add, BitVec.toNat_ofNat, blockCount, Nat.add_mod_mod]

/-- `I` after a block depends on `I` alone. -/
theorem indexAfter_congr {s t : State} (x : Reg) (h : t.index = s.index) : indexAfter t x = indexAfter s x := by
  rw [indexAfter, indexAfter, h]

/-- The glyph index is the product: it does not reach 2^16 (R142). -/
theorem glyphIndex_toNat (b : Byte) : (fontIndexBase + glyphOffset b).toNat = 5 * b.toNat := by
  have hoffset : (glyphOffset b).toNat = 5 * b.toNat := by
    rw [glyphOffset, BitVec.toNat_mul, zextByte_toNat]; simp; omega
  rw [BitVec.toNat_add, hoffset]; simp [fontIndexBase]; omega

/-- Fx33 leaves every byte but its three as it was. -/
theorem sameMemoryBut_afterFx33 (s : State) (x : Reg) : SameMemoryBut s.index.toNat 3 s (afterFx33 s x) :=
  fun a ha => readByte_writeBlock_other (decimalDigits (getV s x)) s.mem _ a ha

/-- Each of the three digits stands at its place. -/
theorem readByte_afterFx33 (s : State) (x : Reg) {i : Nat} {d : Byte} (hd : (decimalDigits (getV s x))[i]? = some d)
    (hr : s.index.toNat + 2 < 0x1000) (hm : s.mem.wf = true) : readByte (afterFx33 s x).mem (s.index.toNat + i) = d :=
  readByte_writeBlock_same _ s.mem _ i d hd hr hm

/-- Fx55 leaves every byte outside its block as it was. -/
theorem sameMemoryBut_afterFx55 (s : State) (x : Reg) : SameMemoryBut s.index.toNat (x.val + 1) s (afterFx55 s x) :=
  fun a ha => readByte_writeBlock_other (registersUpTo s x) s.mem _ a (by rwa [registersUpTo_length])

/-- Each stored register stands at its place. -/
theorem readByte_afterFx55 (s : State) {x i : Reg} (hi : i ≤ x) (hr : s.index.toNat + x.val < 0x1000)
    (hm : s.mem.wf = true) : readByte (afterFx55 s x).mem (s.index.toNat + i.val) = getV s i :=
  readByte_writeBlock_same _ s.mem _ i.val _ (registersUpTo_getElem? s x i.val hi)
    (by rw [registersUpTo_length]; omega) hm

/-- The registers up to `x` hold the block. -/
theorem getV_afterFx65_loaded (s : State) {x q : Reg} (h : q ≤ x) :
    getV (afterFx65 s x) q = readByte s.mem (s.index.toNat + q.val) :=
  (getV_setRegisters_from s s.index.toNat x q).trans (if_pos (Fin.le_def.mp h))

/-- The registers above `x` are as before. -/
theorem getV_afterFx65_other (s : State) {x q : Reg} (h : ¬ q ≤ x) : getV (afterFx65 s x) q = getV s q :=
  (getV_setRegisters_from s s.index.toNat x q).trans (if_neg (mt Fin.le_def.mpr h))

/-- A hundreds, tens or units digit of a byte fits a byte. -/
theorem digit_toNat {n : Nat} (h : n < 256) : (BitVec.ofNat 8 n).toNat = n := by
  rw [BitVec.toNat_ofNat, Nat.mod_eq_of_lt h]

/-! ### Obligations -/

/-- Settles O21: one write of `I`, of a 12-bit number. -/
theorem loadIndexSetsI : Obligations.LoadIndexSetsI := fun nnn s =>
  ⟨decodeWord_opAnnn nnn, _, exec_opAnnn nnn s, zextAddr_toNat nnn, by rw [setIndex_index, zextAddr_toNat]; omega,
    onlyIndex_setIndex s _⟩

/-- Settles O22: one write of `I`, of a 16-bit sum. -/
theorem addToIndexWraps : Obligations.AddToIndexWraps := fun x s =>
  ⟨decodeWord_opFx1E x, _, exec_opFx1E x s, by rw [setIndex_index, BitVec.toNat_add, zextByte_toNat],
    onlyIndex_setIndex s _⟩

/-- Settles O23: one write of `I`, of five times a byte. -/
theorem glyphIndexIsFiveTimes : Obligations.GlyphIndexIsFiveTimes := fun x s =>
  ⟨decodeWord_opFx29 x, _, exec_opFx29 x s, glyphIndex_toNat _, by rw [setIndex_index, glyphIndex_toNat]; omega,
    onlyIndex_setIndex s _⟩

/-- Settles O24: the block of the three digits is read back where it exists, and is not written where it does not. -/
theorem storeBcdWritesThreeDigits : Obligations.StoreBcdWritesThreeDigits := by
  intro x s
  have hb := (getV s x).isLt
  refine ⟨decodeWord_opFx33 x, fun hr hm => ⟨_, exec_opFx33_ok x hr, ?_, ?_, ?_, sameMemoryBut_afterFx33 s x,
    onlyMemory_setMem s _⟩, exec_opFx33_fault x⟩
  · exact (congrArg BitVec.toNat (readByte_afterFx33 s x (i := 0) rfl hr hm)).trans (digit_toNat (by omega))
  · exact (congrArg BitVec.toNat (readByte_afterFx33 s x (i := 1) rfl hr hm)).trans (digit_toNat (by omega))
  · exact (congrArg BitVec.toNat (readByte_afterFx33 s x (i := 2) rfl hr hm)).trans (digit_toNat (by omega))

/-- Settles O25: the block of the registers is read back where it exists, and is not written where it does not. -/
theorem storeRegistersWritesTheBlock : Obligations.StoreRegistersWritesTheBlock := fun x s =>
  ⟨decodeWord_opFx55 x,
    fun hr hm => ⟨_, exec_opFx55_ok hr, fun _ hi => readByte_afterFx55 s hi hr hm, indexAfter_toNat s x,
      sameMemoryBut_afterFx55 s x, onlyMemoryAndIndex_setIndex_setMem s _ _⟩,
    exec_opFx55_fault⟩

/-- Settles O26: the registers up to `x` are those of the block, where it exists. -/
theorem loadRegistersReadsTheBlock : Obligations.LoadRegistersReadsTheBlock := fun x s =>
  ⟨decodeWord_opFx65 x,
    fun hr => ⟨_, exec_opFx65_ok hr, fun _ hi => getV_afterFx65_loaded s hi,
      indexAfter_toNat s x, fun _ hq => getV_afterFx65_other s hq,
      onlyRegistersAndIndex_setIndex_setRegisters s _ _⟩,
    exec_opFx65_fault⟩

/-- Settles O27: a completed store had its block in range, so the load from the same index completes and reads it. -/
theorem storedRegistersLoadBack : Obligations.StoredRegistersLoadBack := by
  intro x s t regs hm ht
  obtain ⟨hrange, hnext⟩ := ifInRange_next (exec_opFx55 x s ▸ ht)
  obtain rfl : afterFx55 s x = t := Host.Outcome.next.inj hnext
  have hr : s.index.toNat + x.val < 0x1000 := by omega
  refine ⟨_, exec_opFx65_ok hr, fun i hi => ?_, indexAfter_congr x rfl⟩
  rw [getV_afterFx65_loaded _ hi]
  exact readByte_afterFx55 s hi hr hm

end Sys2Proof.Machine
end

section
/-!
PROOFS. The compositor (44_display.md): a drawing in progress against the set of pixels that its bits so far lie on, the
loops over columns and rows by induction, and the obligation O31.
-/

namespace Sys2Proof.Machine

/-! ### A drawing in progress -/

/-- `b` is the display `d` after each pixel of the set `C` has been under one sprite bit of 1, and no other pixel under
any (R153 to R157). -/
structure Blitted (C : Fin 64 → Fin 32 → Prop) (d : Display) (b : Blit) : Prop where
  inverted : ∀ cx cy, C cx cy → getPixel b.display cx cy = !getPixel d cx cy
  kept : ∀ cx cy, ¬ C cx cy → getPixel b.display cx cy = getPixel d cx cy
  collision : b.collision = true ↔ ∃ cx cy, C cx cy ∧ getPixel d cx cy = true
  dirty : b.display.dirty = true ↔ d.dirty = true ∨ ∃ cx cy, C cx cy

theorem blitted_start (d : Display) : Blitted (fun _ _ => False) d ⟨d, false⟩ where
  inverted := fun _ _ h => h.elim
  kept := fun _ _ _ => rfl
  collision := by simp
  dirty := by simp

theorem Blitted.congr {C C' : Fin 64 → Fin 32 → Prop} {d : Display} {b : Blit} (h : Blitted C d b)
    (hC : ∀ cx cy, C cx cy ↔ C' cx cy) : Blitted C' d b := by
  have : C = C' := funext fun cx => funext fun cy => propext (hC cx cy)
  exact this ▸ h

/-- A sprite bit of 1 on a pixel that none has been on before: the pixel still holds its first value. -/
theorem Blitted.pixel {C : Fin 64 → Fin 32 → Prop} {d : Display} {b : Blit} (h : Blitted C d b) (px : Fin 64)
    (py : Fin 32) (hnew : ¬ C px py) :
    Blitted (fun cx cy => C cx cy ∨ (px = cx ∧ py = cy)) d (blitPixel b px py) where
  inverted := by
    rintro cx cy (hC | ⟨rfl, rfl⟩)
    · have hne : ¬ (px = cx ∧ py = cy) := by rintro ⟨rfl, rfl⟩; exact hnew hC
      rw [blitPixel, getPixel_togglePixel, if_neg hne, h.inverted cx cy hC]
    · rw [blitPixel, getPixel_togglePixel, if_pos ⟨rfl, rfl⟩, h.kept px py hnew]
  kept := by
    intro cx cy hC
    obtain ⟨hold, hne⟩ := not_or.mp hC
    rw [blitPixel, getPixel_togglePixel, if_neg hne, h.kept cx cy hold]
  collision := by
    rw [blitPixel, Bool.or_eq_true, h.collision, h.kept px py hnew]
    constructor
    · rintro (⟨cx, cy, hC, hset⟩ | hset)
      · exact ⟨cx, cy, .inl hC, hset⟩
      · exact ⟨px, py, .inr ⟨rfl, rfl⟩, hset⟩
    · rintro ⟨cx, cy, hC | ⟨rfl, rfl⟩, hset⟩
      · exact .inl ⟨cx, cy, hC, hset⟩
      · exact .inr hset
  dirty := by
    rw [blitPixel, togglePixel_dirty]
    exact iff_of_true rfl (.inr ⟨px, py, .inr ⟨rfl, rfl⟩⟩)

/-! ### One row -/

/-- The first `k` columns of the sprite row `row`, drawn from column `ox` on at row `y`, have a bit of 1 on the
pixel. -/
def rowCovers (ox y : Nat) (row : Byte) (k : Nat) (cx : Fin 64) (cy : Fin 32) : Prop :=
  ∃ col < k, spriteBit row col = true ∧ wrapColumn (ox + col) = cx ∧ wrapRow y = cy

theorem rowCovers_zero (ox y : Nat) (row : Byte) (cx : Fin 64) (cy : Fin 32) : ¬ rowCovers ox y row 0 cx cy := by
  simp [rowCovers]

theorem rowCovers_succ (ox y : Nat) (row : Byte) (k : Nat) (cx : Fin 64) (cy : Fin 32) :
    rowCovers ox y row (k + 1) cx cy ↔
      rowCovers ox y row k cx cy ∨ (spriteBit row k = true ∧ wrapColumn (ox + k) = cx ∧ wrapRow y = cy) := by
  constructor
  · rintro ⟨col, hcol, hbit⟩
    obtain hlt | rfl := Nat.lt_succ_iff_lt_or_eq.mp hcol
    · exact .inl ⟨col, hlt, hbit⟩
    · exact .inr hbit
  · rintro (⟨col, hcol, hbit⟩ | hbit)
    · exact ⟨col, Nat.lt_succ_of_lt hcol, hbit⟩
    · exact ⟨k, Nat.lt_succ_self k, hbit⟩

/-- Two columns of one sprite row lie on different columns of the display. -/
theorem wrapColumn_inj {ox c c' : Nat} (hc : c < 8) (hc' : c' < 8) (h : wrapColumn (ox + c) = wrapColumn (ox + c')) :
    c = c' := by
  have := congrArg Fin.val h
  simp only [wrapColumn_val] at this
  omega

/-- Two rows of one sprite, which has at most 32, lie on different rows of the display. -/
theorem wrapRow_inj {oy r r' : Nat} (hr : r < 32) (hr' : r' < 32) (h : wrapRow (oy + r) = wrapRow (oy + r')) :
    r = r' := by
  have := congrArg Fin.val h
  simp only [wrapRow_val] at this
  omega

/-- The loop over the columns, by induction on how many are drawn. -/
theorem Blitted.columns {C : Fin 64 → Fin 32 → Prop} {d : Display} {b : Blit} (h : Blitted C d b) (ox y : Nat)
    (row : Byte) (hnew : ∀ cx cy, C cx cy → ¬ rowCovers ox y row 8 cx cy) (k : Nat) (hk : k ≤ 8) :
    Blitted (fun cx cy => C cx cy ∨ rowCovers ox y row k cx cy) d ((List.range k).foldl (blitBit ox y row) b) := by
  induction k with
  | zero => exact h.congr fun cx cy => (or_iff_left (rowCovers_zero ox y row cx cy)).symm
  | succ k ih =>
    specialize ih (by omega)
    rw [List.range_succ, List.foldl_append, List.foldl_cons, List.foldl_nil]
    by_cases hbit : spriteBit row k = true
    · have hfresh : ¬ (C (wrapColumn (ox + k)) (wrapRow y) ∨
          rowCovers ox y row k (wrapColumn (ox + k)) (wrapRow y)) := by
        rintro (hC | ⟨col, hcol, -, hx, -⟩)
        · exact hnew _ _ hC ⟨k, hk, hbit, rfl, rfl⟩
        · exact absurd (wrapColumn_inj (by omega) (by omega) hx) (by omega)
      rw [blitBit_one _ _ _ _ _ hbit]
      exact (ih.pixel _ _ hfresh).congr fun cx cy => by rw [rowCovers_succ, or_assoc]; simp [hbit]
    · rw [blitBit_zero _ _ _ _ _ (by simpa using hbit)]
      exact ih.congr fun cx cy => by rw [rowCovers_succ]; simp [hbit]

theorem Blitted.row {C : Fin 64 → Fin 32 → Prop} {d : Display} {b : Blit} (h : Blitted C d b) (ox y : Nat) (row : Byte)
    (hnew : ∀ cx cy, C cx cy → ¬ rowCovers ox y row 8 cx cy) :
    Blitted (fun cx cy => C cx cy ∨ rowCovers ox y row 8 cx cy) d (blitRow ox y row b) :=
  h.columns ox y row hnew 8 le_rfl

/-! ### All rows -/

theorem spriteCovers_nil (ox y : Nat) (cx : Fin 64) (cy : Fin 32) : ¬ spriteCovers ox y [] cx cy := by
  simp [spriteCovers]

theorem spriteCovers_cons (ox y : Nat) (row : Byte) (rest : List Byte) (cx : Fin 64) (cy : Fin 32) :
    spriteCovers ox y (row :: rest) cx cy ↔ rowCovers ox y row 8 cx cy ∨ spriteCovers ox (y + 1) rest cx cy := by
  constructor
  · rintro ⟨r, col, line, hline, hcol, hbit, hx, hy⟩
    cases r with
    | zero =>
      obtain rfl : row = line := by simpa using hline
      exact .inl ⟨col, hcol, hbit, Fin.ext hx, Fin.ext hy⟩
    | succ r => exact .inr ⟨r, col, line, hline, hcol, hbit, hx, by rw [← hy]; congr 1; omega⟩
  · rintro (⟨col, hcol, hbit, rfl, rfl⟩ | ⟨r, col, line, hline, hcol, hbit, hx, hy⟩)
    · exact ⟨0, col, row, rfl, hcol, hbit, rfl, rfl⟩
    · exact ⟨r + 1, col, line, hline, hcol, hbit, hx, by rw [← hy]; congr 1; omega⟩

/-- A row of the sprite has no pixel in common with the rows after it, of which there are at most 31. -/
theorem not_spriteCovers_of_rowCovers {ox y : Nat} {row : Byte} {rest : List Byte} {cx : Fin 64} {cy : Fin 32}
    (hlen : rest.length < 32) (h : rowCovers ox y row 8 cx cy) : ¬ spriteCovers ox (y + 1) rest cx cy := by
  rintro ⟨r, col, line, hline, -, -, -, hy⟩
  obtain ⟨-, -, -, -, rfl⟩ := h
  obtain ⟨hr, -⟩ := List.getElem?_eq_some_iff.mp hline
  rw [wrapRow_val] at hy
  omega

/-- The loop over the rows, by induction on them. -/
theorem Blitted.rows {C : Fin 64 → Fin 32 → Prop} {d : Display} {b : Blit} (h : Blitted C d b) (ox y : Nat)
    (rows : List Byte) (hlen : rows.length ≤ 32) (hnew : ∀ cx cy, C cx cy → ¬ spriteCovers ox y rows cx cy) :
    Blitted (fun cx cy => C cx cy ∨ spriteCovers ox y rows cx cy) d (blitRows ox y rows b) := by
  induction rows generalizing C b y with
  | nil => exact h.congr fun cx cy => (or_iff_left (spriteCovers_nil ox y cx cy)).symm
  | cons row rest ih =>
    have hrest : rest.length < 32 := hlen
    have hrow := h.row ox y row fun cx cy hC hcov => hnew cx cy hC ((spriteCovers_cons ..).mpr (.inl hcov))
    have hall := ih hrow (y + 1) hrest.le (by
      rintro cx cy (hC | hcov)
      · exact fun hlater => hnew cx cy hC ((spriteCovers_cons ..).mpr (.inr hlater))
      · exact not_spriteCovers_of_rowCovers hrest hcov)
    exact hall.congr fun cx cy => by rw [spriteCovers_cons, or_assoc]

/-- The whole drawing: the pixels under it are those the sprite covers. -/
theorem blitted_draw (ox oy : Nat) (rows : List Byte) (d : Display) (hlen : rows.length ≤ 32) :
    Blitted (spriteCovers ox oy rows) d (draw ox oy rows d) :=
  ((blitted_start d).rows ox oy rows hlen fun _ _ h => h.elim).congr fun _ _ => iff_of_eq (false_or _)

/-! ### Obligation -/

/-- Settles O31, by induction on the columns of a row and on the rows: as no two sprite bits share a pixel, each pixel
is inverted at most once, and a collision is seen in its first value. -/
theorem drawInvertsExactlyTheCoveredPixels : Obligations.DrawInvertsExactlyTheCoveredPixels := by
  intro ox oy rows d hlen
  have h := blitted_draw ox oy rows d (by omega)
  exact ⟨h.inverted, h.kept, h.collision, h.dirty, fun r r' c c' hr hr' hc hc' hx hy =>
    ⟨wrapRow_inj (by omega) (by omega) hy, wrapColumn_inj hc hc' hx⟩⟩

end Sys2Proof.Machine
end

section
/-!
PROOFS. The draw instruction (44_display.md): what its arm answers, and the obligations O30 and O32.
-/

namespace Sys2Proof.Machine

/-! ### The arm of the draw -/

/-- The drawing that Dxyn makes of the sprite it reads. -/
def drawn (s : State) (x y n : Fin 16) : Blit :=
  draw (getV s x).toNat (getV s y).toNat (readBlock s.mem s.index.toNat n.val) s.display

/-- The state after Dxyn, where its sprite exists. -/
def afterDxyn (s : State) (x y n : Fin 16) : State :=
  setVF (setDisplay s (drawn s x y n).display) (flagByte (drawn s x y n).collision)

theorem exec_opDxyn (x y n : Fin 16) (s : State) :
    exec (.opDxyn x y n) s = ifInRange s.index.toNat n.val (.next (afterDxyn s x y n)) := rfl

/-- Dxyn completes exactly where its sprite exists. -/
theorem exec_opDxyn_ok (x y : Fin 16) {n : Fin 16} {s : State} (h : n.val = 0 ∨ s.index.toNat + n.val ≤ 0x1000) :
    exec (.opDxyn x y n) s = .next (afterDxyn s x y n) := by
  rw [exec_opDxyn, ifInRange_ok _ _ _ h]

theorem exec_opDxyn_fault (x y : Fin 16) {n : Fin 16} {s : State} (h0 : n.val ≠ 0)
    (h : 0x1000 < s.index.toNat + n.val) :
    exec (.opDxyn x y n) s = .fault (.addressOutOfRange (max s.index.toNat 0x1000)) := by
  rw [exec_opDxyn, ifInRange_fault _ _ _ h0 h]

/-! ### The effect of a draw -/

/-- A display write and a flag write leave the other registers, memory and every other field as they were. -/
theorem onlyDisplayAndVF (s : State) (d : Display) (b : Byte) :
    SameRegistersBut (· = 15) s (setVF (setDisplay s d) b) ∧ SameMemory s (setVF (setDisplay s d) b) ∧
    setVF (setDisplay s d) b =
      { s with v := (setVF (setDisplay s d) b).v, display := (setVF (setDisplay s d) b).display } :=
  ⟨fun _ hr => getV_setVF_other _ b hr, fun _ => rfl, rfl⟩

theorem getV_afterDxyn_vf (s : State) (x y n : Fin 16) :
    getV (afterDxyn s x y n) 15 = if (drawn s x y n).collision then 0x01 else 0x00 :=
  getV_setVF_same _ _

/-- A sprite without rows draws nothing. -/
theorem drawn_zero (s : State) (x y : Fin 16) : drawn s x y 0 = ⟨s.display, false⟩ := rfl

theorem blitted_drawn (s : State) (x y n : Fin 16) :
    Blitted (spriteCovers (getV s x).toNat (getV s y).toNat (readBlock s.mem s.index.toNat n.val)) s.display
      (drawn s x y n) :=
  blitted_draw _ _ _ _ (by rw [readBlock_length]; omega)

/-- With neither origin register VF, a second draw reads the same origin and the same sprite. -/
theorem blitted_redrawn (s : State) {x y : Fin 16} (n : Fin 16) (hx : x ≠ 15) (hy : y ≠ 15) :
    Blitted (spriteCovers (getV s x).toNat (getV s y).toNat (readBlock s.mem s.index.toNat n.val))
      (drawn s x y n).display (drawn (afterDxyn s x y n) x y n) := by
  have hox : getV (afterDxyn s x y n) x = getV s x := getV_setVF_other _ _ hx
  have hoy : getV (afterDxyn s x y n) y = getV s y := getV_setVF_other _ _ hy
  rw [← hox, ← hoy]
  exact blitted_drawn (afterDxyn s x y n) x y n

/-- A sprite drawn twice leaves every pixel as it was. -/
theorem pix_of_redraw {C : Fin 64 → Fin 32 → Prop} {d : Display} {b c : Blit} (hb : Blitted C d b)
    (hc : Blitted C b.display c) : c.display.pix = d.pix := by
  have hpixels : ∀ cx cy, getPixel c.display cx cy = getPixel d cx cy := by
    intro cx cy
    by_cases h : C cx cy
    · rw [hc.inverted cx cy h, hb.inverted cx cy h, Bool.not_not]
    · rw [hc.kept cx cy h, hb.kept cx cy h]
  have heq : (⟨c.display.pix, d.dirty⟩ : Display) = d := Display.ext_pixels hpixels rfl
  rw [← heq]

/-- The second draw collides where the first one set a pixel. -/
theorem collision_of_redraw {C : Fin 64 → Fin 32 → Prop} {d : Display} {b c : Blit} (hb : Blitted C d b)
    (hc : Blitted C b.display c) : c.collision = true ↔ ∃ cx cy, C cx cy ∧ getPixel d cx cy = false := by
  rw [hc.collision]
  refine exists_congr fun cx => exists_congr fun cy => and_congr_right fun h => ?_
  rw [hb.inverted cx cy h, Bool.not_eq_true']

/-! ### Obligations -/

/-- Settles O30: a display write, of the drawing, then a flag write, of its collision. -/
theorem drawInstructionDrawsAndFlags : Obligations.DrawInstructionDrawsAndFlags := by
  intro x y n s
  refine ⟨decodeWord_opDxyn x y n, fun h => ?_, fun h0 => exec_opDxyn_fault x y (Fin.val_ne_of_ne h0)⟩
  refine ⟨_, readBlock s.mem s.index.toNat n.val, exec_opDxyn_ok x y (h.imp_left (congrArg Fin.val)),
    readBlock_length _ _ _, fun r hr => readBlock_getElem? _ _ _ _ hr, rfl, getV_afterDxyn_vf s x y n, ?_,
    onlyDisplayAndVF s _ _⟩
  rintro rfl
  exact ⟨congrArg Blit.display (drawn_zero s x y), by rw [getV_afterDxyn_vf, drawn_zero]; rfl⟩

/-- Settles O32: both draws invert the same pixels. -/
theorem redrawRestoresTheDisplay : Obligations.RedrawRestoresTheDisplay := by
  intro x y n s t hx hy ht
  obtain ⟨hrange, hnext⟩ := ifInRange_next (exec_opDxyn x y n s ▸ ht)
  obtain rfl : afterDxyn s x y n = t := Host.Outcome.next.inj hnext
  have hfirst := blitted_drawn s x y n
  have hsecond := blitted_redrawn s n hx hy
  refine ⟨_, exec_opDxyn_ok x y hrange, pix_of_redraw hfirst hsecond, ?_⟩
  rw [getV_afterDxyn_vf, ← collision_of_redraw hfirst hsecond]
  cases (drawn (afterDxyn s x y n) x y n).collision <;> simp

end Sys2Proof.Machine
end

section
/-!
PROOFS. Key tests and timer access (45_keys_timers.md): what their arms answer, and the obligations O33 and O35.
-/

namespace Sys2Proof.Machine

/-! ### The arms of the key tests and of the timer access -/

theorem exec_opEx9E (x : Reg) (s : State) :
    exec (.opEx9E x) s = withKey s (getV s x) fun pressed => .next (skipIf pressed s) := rfl

theorem exec_opExA1 (x : Reg) (s : State) :
    exec (.opExA1 x) s = withKey s (getV s x) fun pressed => .next (skipIf (!pressed) s) := rfl

theorem exec_opFx07 (x : Reg) (s : State) : exec (.opFx07 x) s = .next (setV s x s.delayTimer) := rfl

theorem exec_opFx15 (x : Reg) (s : State) : exec (.opFx15 x) s = .next (setDelayTimer s (getV s x)) := rfl

theorem exec_opFx18 (x : Reg) (s : State) : exec (.opFx18 x) s = .next (setSoundTimer s (getV s x)) := rfl

/-- Where `V[x]` is a key number, the test goes on with that key. -/
theorem withKey_keyNum {s : State} {b : Byte} {k : KeyNum} (c : Bool → Result) (h : b.toNat = k.val) :
    withKey s b c = c s.keys[k.val] := by
  rw [withKey_ok s b c (by omega)]
  simp only [h]

theorem skipIf_not_pc (c : Bool) (s : State) : (skipIf (!c) s).pc = if c = true then s.pc else s.pc + 2 := by
  cases c <;> rfl

/-! ### Obligations -/

/-- Settles O33: each is one conditional skip, on the level of the key, where there is such a key. -/
theorem skipsOnKey : Obligations.SkipsOnKey := fun x s =>
  ⟨decodeWord_opEx9E x, decodeWord_opExA1 x,
    fun _ hk =>
      ⟨⟨_, (exec_opEx9E x s).trans (withKey_keyNum _ hk), skipIf_pc s _, onlyPc_skipIf _ s⟩,
        ⟨_, (exec_opExA1 x s).trans (withKey_keyNum _ hk), skipIf_not_pc _ s, onlyPc_skipIf _ s⟩⟩,
    fun hx => ⟨(exec_opEx9E x s).trans (withKey_fault s _ _ hx), (exec_opExA1 x s).trans (withKey_fault s _ _ hx)⟩⟩

/-- Settles O35: one register write, or one write of a timer. -/
theorem timerRegistersAreReadAndWritten : Obligations.TimerRegistersAreReadAndWritten := fun x s =>
  ⟨decodeWord_opFx07 x, decodeWord_opFx15 x, decodeWord_opFx18 x,
    ⟨_, exec_opFx07 x s, getV_setV_same s x _, onlyRegisters_setV s x _⟩,
    ⟨_, exec_opFx15 x s, rfl, rfl, fun _ _ => rfl, fun _ => rfl, rfl⟩,
    ⟨_, exec_opFx18 x s, rfl, rfl, fun _ _ => rfl, fun _ => rfl, rfl⟩⟩

end Sys2Proof.Machine
end

section
/-!
PROOFS. Frames of the instructions (10_state.md): what each update of the state leaves unchanged, what each instruction
does, and the obligations O51 to O58.
-/

namespace Sys2Proof.Machine

/-! ### The frame of an instruction -/

/-- The operations that may write memory (R34). -/
def writesMemory (i : Instr) : Prop := (∃ x, i = .opFx33 x) ∨ ∃ x, i = .opFx55 x

/-- The operations that may write the call stack (R27). -/
def writesStack (i : Instr) : Prop := (∃ a, i = .op2nnn a) ∨ i = .op00EE

/-- The operations that may write the display (R35). -/
def writesDisplay (i : Instr) : Prop := i = .op00E0 ∨ ∃ x y n, i = .opDxyn x y n

/-- The operations that may write `I` (R26). -/
def writesIndex (i : Instr) : Prop :=
  (∃ a, i = .opAnnn a) ∨ (∃ x, i = .opFx1E x) ∨ (∃ x, i = .opFx29 x) ∨ (∃ x, i = .opFx55 x) ∨ ∃ x, i = .opFx65 x

/-- From `s` to `t` only those parts of the machine change that the instruction `i` may write. -/
structure InstrFrame (i : Instr) (s t : State) : Prop where
  registers : SameRegistersBut (writesRegister i) s t
  memory : ¬ writesMemory i → t.mem = s.mem
  stack : ¬ writesStack i → t.stack = s.stack
  display : ¬ writesDisplay i → t.display = s.display
  dirty : s.display.dirty = true → t.display.dirty = true
  index : ¬ writesIndex i → t.index = s.index
  pc : ¬ movesPc i → t.pc = s.pc
  delayTimer : ¬ (∃ x, i = .opFx15 x) → t.delayTimer = s.delayTimer
  soundTimer : ¬ (∃ x, i = .opFx18 x) → t.soundTimer = s.soundTimer
  delayAcc : t.delayAcc = s.delayAcc
  soundAcc : t.soundAcc = s.soundAcc
  paused : t.paused = s.paused
  keys : t.keys = s.keys
  loadedCodeLength : t.loadedCodeLength = s.loadedCodeLength
  script : t.script = s.script

/-! ### The frames of the updates -/

theorem InstrFrame.refl (i : Instr) (s : State) : InstrFrame i s s where
  registers := fun _ _ => rfl
  memory := fun _ => rfl
  stack := fun _ => rfl
  display := fun _ => rfl
  dirty := id
  index := fun _ => rfl
  pc := fun _ => rfl
  delayTimer := fun _ => rfl
  soundTimer := fun _ => rfl
  delayAcc := rfl
  soundAcc := rfl
  paused := rfl
  keys := rfl
  loadedCodeLength := rfl
  script := rfl

/-- What an instruction does in two updates, each of which keeps to its frame. -/
theorem InstrFrame.trans {i : Instr} {s t u : State} (h : InstrFrame i s t) (h' : InstrFrame i t u) :
    InstrFrame i s u where
  registers := fun r hr => (h'.registers r hr).trans (h.registers r hr)
  memory := fun hi => (h'.memory hi).trans (h.memory hi)
  stack := fun hi => (h'.stack hi).trans (h.stack hi)
  display := fun hi => (h'.display hi).trans (h.display hi)
  dirty := h'.dirty ∘ h.dirty
  index := fun hi => (h'.index hi).trans (h.index hi)
  pc := fun hi => (h'.pc hi).trans (h.pc hi)
  delayTimer := fun hi => (h'.delayTimer hi).trans (h.delayTimer hi)
  soundTimer := fun hi => (h'.soundTimer hi).trans (h.soundTimer hi)
  delayAcc := h'.delayAcc.trans h.delayAcc
  soundAcc := h'.soundAcc.trans h.soundAcc
  paused := h'.paused.trans h.paused
  keys := h'.keys.trans h.keys
  loadedCodeLength := h'.loadedCodeLength.trans h.loadedCodeLength
  script := h'.script.trans h.script

section
variable {i : Instr} {s : State}

theorem frame_setV {x : Reg} {b : Byte} (hi : writesRegister i x) : InstrFrame i s (setV s x b) :=
  { InstrFrame.refl i s with registers := fun _ hr => getV_setV_other s b fun h => hr (h ▸ hi) }

theorem frame_setVF {b : Byte} (hi : writesRegister i vf) : InstrFrame i s (setVF s b) := frame_setV hi

theorem frame_result_then_flag {x : Reg} {result flag : Byte} (hx : writesRegister i x) (hvf : writesRegister i vf) :
    InstrFrame i s (setVF (setV s x result) flag) :=
  (frame_setV hx).trans (frame_setVF hvf)

theorem frame_flagThenShift {x : Reg} {flag : Byte} {shift : Byte → Byte} (hx : writesRegister i x)
    (hvf : writesRegister i vf) : InstrFrame i s (flagThenShift s x flag shift) :=
  (frame_setVF hvf).trans (frame_setV hx)

theorem frame_setRegisters {l : Vector Byte 16} (hi : SameRegistersBut (writesRegister i) s (setRegisters s l)) :
    InstrFrame i s (setRegisters s l) :=
  { InstrFrame.refl i s with registers := hi }

theorem frame_setPc {w : Word} (hi : movesPc i) : InstrFrame i s (setPc s w) :=
  { InstrFrame.refl i s with pc := fun h => absurd hi h }

theorem frame_skipIf {c : Bool} (hi : movesPc i) : InstrFrame i s (skipIf c s) := by
  cases c with
  | false => exact .refl i s
  | true => exact frame_setPc hi

theorem frame_setIndex {w : Word} (hi : writesIndex i) : InstrFrame i s (setIndex s w) :=
  { InstrFrame.refl i s with index := fun h => absurd hi h }

theorem frame_setMem {m : Memory} (hi : writesMemory i) : InstrFrame i s (setMem s m) :=
  { InstrFrame.refl i s with memory := fun h => absurd hi h }

theorem frame_setStack {l : List Word} (hi : writesStack i) : InstrFrame i s (setStack s l) :=
  { InstrFrame.refl i s with stack := fun h => absurd hi h }

theorem frame_setDisplay {d : Display} (hi : writesDisplay i) (hd : s.display.dirty = true → d.dirty = true) :
    InstrFrame i s (setDisplay s d) :=
  { InstrFrame.refl i s with display := fun h => absurd hi h, dirty := hd }

theorem frame_setDelayTimer {b : Byte} (hi : ∃ x, i = .opFx15 x) : InstrFrame i s (setDelayTimer s b) :=
  { InstrFrame.refl i s with delayTimer := fun h => absurd hi h }

theorem frame_setSoundTimer {b : Byte} (hi : ∃ x, i = .opFx18 x) : InstrFrame i s (setSoundTimer s b) :=
  { InstrFrame.refl i s with soundTimer := fun h => absurd hi h }

theorem frame_countDraw : InstrFrame i s (countDraw s) := { InstrFrame.refl i s with }

end

/-! ### The frame of every instruction -/

/-- An operation answers at most one next state. -/
theorem eq_of_next {r : Result} {t u : State} (hr : r = .next u) (ht : r = .next t) : u = t :=
  Host.Outcome.next.inj (hr.symm.trans ht)

theorem InstrFrame.of_next {i : Instr} {s t u : State} {r : Result} (hr : r = .next u) (ht : r = .next t)
    (hu : InstrFrame i s u) : InstrFrame i s t :=
  eq_of_next hr ht ▸ hu

theorem InstrFrame.of_ifInRange {i : Instr} {s t u : State} {base len : Nat} {r : Result}
    (hr : r = ifInRange base len (.next u)) (ht : r = .next t) (hu : InstrFrame i s u) : InstrFrame i s t :=
  .of_next rfl (ifInRange_next (hr ▸ ht)).2 hu

theorem frame_of_withKey {i : Instr} {s t : State} (hi : movesPc i) {k : Byte} {c : Bool → Bool}
    (ht : withKey s k (fun pressed => .next (skipIf (c pressed) s)) = .next t) : InstrFrame i s t := by
  obtain h | h := Nat.lt_or_ge k.toNat 16
  · exact .of_next (withKey_ok s k _ h) ht (frame_skipIf hi)
  · rw [withKey_fault s k _ h] at ht
    cases ht

/-- Every instruction keeps to its frame: each of its updates does. -/
theorem exec_frame {i : Instr} {s t : State} (h : exec i s = .next t) : InstrFrame i s t := by
  cases i with
  | op00E0 => exact .of_next (exec_op00E0 s) h (frame_setDisplay (.inl rfl) fun _ => rfl)
  | op00EE =>
    cases hs : s.stack with
    | nil => exact .of_next (exec_op00EE_of_nil hs) h (.refl _ s)
    | cons top rest =>
      exact .of_next (exec_op00EE_of_cons hs) h (.trans (frame_setStack (.inr rfl)) (frame_setPc (.inl rfl)))
  | op1nnn nnn => exact .of_next (exec_op1nnn nnn s) h (frame_setPc (by simp [movesPc]))
  | op2nnn nnn =>
    exact .of_next (exec_op2nnn nnn s) h
      (.trans (frame_setStack (.inl ⟨nnn, rfl⟩)) (frame_setPc (by simp [movesPc])))
  | op3xkk x kk => exact .of_next (exec_op3xkk x kk s) h (frame_skipIf (by simp [movesPc]))
  | op4xkk x kk => exact .of_next (exec_op4xkk x kk s) h (frame_skipIf (by simp [movesPc]))
  | op5xy0 x y => exact .of_next (exec_op5xy0 x y s) h (frame_skipIf (by simp [movesPc]))
  | op6xkk x kk => exact .of_next (exec_op6xkk x kk s) h (frame_setV rfl)
  | op7xkk x kk => exact .of_next (exec_op7xkk x kk s) h (frame_setV rfl)
  | op8xy0 x y => exact .of_next (exec_op8xy0 x y s) h (frame_setV rfl)
  | op8xy1 x y => exact .of_next (exec_op8xy1 x y s) h (frame_setV rfl)
  | op8xy2 x y => exact .of_next (exec_op8xy2 x y s) h (frame_setV rfl)
  | op8xy3 x y => exact .of_next (exec_op8xy3 x y s) h (frame_setV rfl)
  | op8xy4 x y => exact .of_next (exec_op8xy4 x y s) h (frame_result_then_flag (.inl rfl) (.inr rfl))
  | op8xy5 x y => exact .of_next (exec_op8xy5 x y s) h (frame_result_then_flag (.inl rfl) (.inr rfl))
  | op8xy6 x y => exact .of_next (exec_op8xy6 x y s) h (frame_flagThenShift (.inl rfl) (.inr rfl))
  | op8xy7 x y => exact .of_next (exec_op8xy7 x y s) h (frame_result_then_flag (.inl rfl) (.inr rfl))
  | op8xyE x y => exact .of_next (exec_op8xyE x y s) h (frame_flagThenShift (.inl rfl) (.inr rfl))
  | op9xy0 x y => exact .of_next (exec_op9xy0 x y s) h (frame_skipIf (by simp [movesPc]))
  | opAnnn nnn => exact .of_next (exec_opAnnn nnn s) h (frame_setIndex (.inl ⟨nnn, rfl⟩))
  | opBnnn nnn => exact .of_next (exec_opBnnn nnn s) h (frame_setPc (by simp [movesPc]))
  | opCxkk x kk => exact .of_next (exec_opCxkk x kk s) h (.trans (frame_setV rfl) frame_countDraw)
  | opDxyn x y n =>
    have hdirty : s.display.dirty = true → (drawn s x y n).display.dirty = true :=
      fun hd => (blitted_drawn s x y n).dirty.mpr (.inl hd)
    exact .of_ifInRange (exec_opDxyn x y n s) h
      (.trans (frame_setDisplay (.inr ⟨x, y, n, rfl⟩) hdirty) (frame_setVF rfl))
  | opEx9E x => exact frame_of_withKey (c := id) (by simp [movesPc]) (exec_opEx9E x s ▸ h)
  | opExA1 x => exact frame_of_withKey (c := not) (by simp [movesPc]) (exec_opExA1 x s ▸ h)
  | opFx07 x => exact .of_next (exec_opFx07 x s) h (frame_setV rfl)
  | opFx0A x =>
    cases hk : lowestPressed s with
    | none => exact .of_next (exec_opFx0A_of_none x hk) h (frame_setPc (by simp [movesPc]))
    | some k => exact .of_next (exec_opFx0A_of_some x hk) h (frame_setV rfl)
  | opFx15 x => exact .of_next (exec_opFx15 x s) h (frame_setDelayTimer ⟨x, rfl⟩)
  | opFx18 x => exact .of_next (exec_opFx18 x s) h (frame_setSoundTimer ⟨x, rfl⟩)
  | opFx1E x => exact .of_next (exec_opFx1E x s) h (frame_setIndex (.inr (.inl ⟨x, rfl⟩)))
  | opFx29 x => exact .of_next (exec_opFx29 x s) h (frame_setIndex (.inr (.inr (.inl ⟨x, rfl⟩))))
  | opFx33 x => exact .of_ifInRange (exec_opFx33 x s) h (frame_setMem (.inl ⟨x, rfl⟩))
  | opFx55 x =>
    exact .of_ifInRange (exec_opFx55 x s) h
      (.trans (frame_setMem (.inr ⟨x, rfl⟩)) (frame_setIndex (.inr (.inr (.inr (.inl ⟨x, rfl⟩))))))
  | opFx65 x =>
    have hregs : SameRegistersBut (writesRegister (.opFx65 x)) s
        (setRegisters s (registersFrom s s.index.toNat x)) :=
      fun r hr => (getV_setRegisters_from s s.index.toNat x r).trans (if_neg hr)
    exact .of_ifInRange (exec_opFx65 x s) h
      (.trans (frame_setRegisters hregs) (frame_setIndex (.inr (.inr (.inr (.inr ⟨x, rfl⟩))))))
  | op0nnn nnn => exact .of_next (exec_op0nnn nnn s) h (.refl _ s)
  | undef w => exact .of_next (exec_undef w s) h (.refl _ s)

/-! ### Obligations -/

/-- Settles O51, by the frame of every instruction. -/
theorem onlyFx33AndFx55WriteMemory : Obligations.OnlyFx33AndFx55WriteMemory := by
  intro i s t h33 h55 h
  have hmem := (exec_frame h).memory (not_or.mpr ⟨not_exists.mpr h33, not_exists.mpr h55⟩)
  exact ⟨fun a => by rw [hmem], hmem⟩

/-- Settles O52, by the frame of every instruction. -/
theorem onlyCallAndReturnTouchTheStack : Obligations.OnlyCallAndReturnTouchTheStack := fun _ _ _ hcall hreturn h =>
  (exec_frame h).stack (not_or.mpr ⟨not_exists.mpr hcall, hreturn⟩)

/-- Settles O53, by the frame of every instruction. -/
theorem onlyClearAndDrawTouchTheDisplay : Obligations.OnlyClearAndDrawTouchTheDisplay := fun _ _ _ h =>
  ⟨fun hclear hdraw => (exec_frame h).display (not_or.mpr ⟨hclear, fun ⟨x, y, n, hi⟩ => hdraw x y n hi⟩),
    (exec_frame h).dirty⟩

/-- Settles O54, by the frame of every instruction. -/
theorem instructionsCannotReachHostState : Obligations.InstructionsCannotReachHostState := fun _ _ _ h =>
  ⟨(exec_frame h).paused, (exec_frame h).keys, (exec_frame h).loadedCodeLength, (exec_frame h).script⟩

/-- Settles O55, by the frame of every instruction. -/
theorem onlyFx15AndFx18WriteTheTimers : Obligations.OnlyFx15AndFx18WriteTheTimers := fun _ _ _ h =>
  ⟨fun h15 => (exec_frame h).delayTimer (not_exists.mpr h15), fun h18 => (exec_frame h).soundTimer (not_exists.mpr h18),
    (exec_frame h).delayAcc, (exec_frame h).soundAcc⟩

/-- Settles O56, by the frame of every instruction. -/
theorem onlyIndexInstructionsWriteI : Obligations.OnlyIndexInstructionsWriteI := by
  intro i s t hA h1E h29 h55 h65 h
  apply (exec_frame h).index
  rintro (⟨a, hi⟩ | ⟨x, hi⟩ | ⟨x, hi⟩ | ⟨x, hi⟩ | ⟨x, hi⟩)
  · exact hA a hi
  · exact h1E x hi
  · exact h29 x hi
  · exact h55 x hi
  · exact h65 x hi

/-- Settles O57, by the frame of every instruction. -/
theorem registersNotWrittenAreUnchanged : Obligations.RegistersNotWrittenAreUnchanged := fun _ _ _ h =>
  (exec_frame h).registers

/-- Settles O58, by the frame of every instruction. -/
theorem pcMovesOnlyByControlTransfer : Obligations.PcMovesOnlyByControlTransfer := fun _ _ _ hi h =>
  (exec_frame h).pc hi

end Sys2Proof.Machine
end

section
/-!
PROOFS. Faults and refusals (60_exceptions.md): which instructions can fault at all, when they do, and the obligations
O59 and O60.
-/

namespace Sys2Proof.Machine

/-! ### Which instructions can fault -/

/-- The operations that read or write a block of memory, or test a key (R182). -/
def mayFault (i : Instr) : Prop :=
  (∃ x y n, i = .opDxyn x y n) ∨ (∃ x, i = .opFx33 x) ∨ (∃ x, i = .opFx55 x) ∨ (∃ x, i = .opFx65 x) ∨
  (∃ x, i = .opEx9E x) ∨ ∃ x, i = .opExA1 x

/-- Every other instruction completes. -/
theorem exec_next_of_not_mayFault {i : Instr} (hi : ¬ mayFault i) (s : State) : ∃ t, exec i s = .next t := by
  cases i with
  | op00EE =>
    cases hs : s.stack with
    | nil => exact ⟨_, exec_op00EE_of_nil hs⟩
    | cons top rest => exact ⟨_, exec_op00EE_of_cons hs⟩
  | opFx0A x =>
    cases hk : lowestPressed s with
    | none => exact ⟨_, exec_opFx0A_of_none x hk⟩
    | some k => exact ⟨_, exec_opFx0A_of_some x hk⟩
  | opDxyn x y n => exact absurd (.inl ⟨x, y, n, rfl⟩) hi
  | opFx33 x => exact absurd (.inr (.inl ⟨x, rfl⟩)) hi
  | opFx55 x => exact absurd (.inr (.inr (.inl ⟨x, rfl⟩))) hi
  | opFx65 x => exact absurd (.inr (.inr (.inr (.inl ⟨x, rfl⟩)))) hi
  | opEx9E x => exact absurd (.inr (.inr (.inr (.inr (.inl ⟨x, rfl⟩))))) hi
  | opExA1 x => exact absurd (.inr (.inr (.inr (.inr (.inr ⟨x, rfl⟩))))) hi
  | _ => exact ⟨_, rfl⟩

/-! ### When the range check and the key test fault -/

theorem ifInRange_next_eq_fault_iff (base len : Nat) (t : State) (f : Fault) :
    ifInRange base len (.next t) = .fault f ↔
      f = .addressOutOfRange (max base 0x1000) ∧ 1 ≤ len ∧ 0x1000 ≤ base + len - 1 := by
  by_cases h : len = 0 ∨ base + len ≤ 0x1000
  · rw [ifInRange_ok _ _ _ h]
    exact iff_of_false nofun (by rintro ⟨-, hlen, hbase⟩; omega)
  · rw [ifInRange_fault _ _ _ (by omega) (by omega), Host.Outcome.fault.injEq]
    exact ⟨fun hf => ⟨hf.symm, by omega, by omega⟩, fun hf => hf.1.symm⟩

theorem withKey_next_eq_fault_iff (s : State) (b : Byte) (c : Bool → State) (f : Fault) :
    withKey s b (fun pressed => .next (c pressed)) = .fault f ↔
      16 ≤ b.toNat ∧ f = .keyIndexOutOfRange b.toNat := by
  obtain h | h := Nat.lt_or_ge b.toNat 16
  · rw [withKey_ok s b _ h]
    exact iff_of_false nofun (by rintro ⟨hb, -⟩; omega)
  · rw [withKey_fault s b _ h, Host.Outcome.fault.injEq]
    exact ⟨fun hf => ⟨h, hf.symm⟩, fun hf => hf.2.symm⟩

/-! ### No refusal -/

theorem ifInRange_ne_refused {base len : Nat} {k : Result} {r : Refusal} (hk : k ≠ .refused r) :
    ifInRange base len k ≠ .refused r := by
  unfold ifInRange
  split
  · exact hk
  · nofun

theorem withKey_ne_refused (s : State) (b : Byte) (c : Bool → State) (r : Refusal) :
    withKey s b (fun pressed => .next (c pressed)) ≠ .refused r := by
  unfold withKey
  split <;> nofun

theorem exec_ne_refused (i : Instr) (s : State) (r : Refusal) : exec i s ≠ .refused r := by
  by_cases hi : mayFault i
  · obtain ⟨x, y, n, rfl⟩ | ⟨x, rfl⟩ | ⟨x, rfl⟩ | ⟨x, rfl⟩ | ⟨x, rfl⟩ | ⟨x, rfl⟩ := hi
    · rw [exec_opDxyn]; exact ifInRange_ne_refused nofun
    · rw [exec_opFx33]; exact ifInRange_ne_refused nofun
    · rw [exec_opFx55]; exact ifInRange_ne_refused nofun
    · rw [exec_opFx65]; exact ifInRange_ne_refused nofun
    · rw [exec_opEx9E]; exact withKey_ne_refused s _ _ r
    · rw [exec_opExA1]; exact withKey_ne_refused s _ _ r
  · obtain ⟨t, ht⟩ := exec_next_of_not_mayFault hi s
    rw [ht]; nofun

theorem executeCycle_ne_refused (dt : Time) (s : State) (r : Refusal) : executeCycle dt s ≠ .refused r := by
  rw [executeCycle_cases]
  split
  · nofun
  · exact ifInRange_ne_refused (exec_ne_refused _ _ r)

theorem hostMove_ne_refused (m : HostMove) (s : State) (r : Refusal) : hostMove m s ≠ .refused r := by
  cases m with
  | executeCycle dt => exact executeCycle_ne_refused dt s r
  | _ => nofun

/-! ### Obligations -/

/-- Settles O59: outside the six operations every instruction completes, and those fault exactly where their range check
or key test does. -/
theorem instructionFaultsAreTheListedOnes : Obligations.InstructionFaultsAreTheListedOnes := by
  intro i s f
  by_cases hi : mayFault i
  · obtain ⟨x, y, n, rfl⟩ | ⟨x, rfl⟩ | ⟨x, rfl⟩ | ⟨x, rfl⟩ | ⟨x, rfl⟩ | ⟨x, rfl⟩ := hi
    · rw [exec_opDxyn, ifInRange_next_eq_fault_iff]; simp
    · rw [exec_opFx33, ifInRange_next_eq_fault_iff]; simp
    · rw [exec_opFx55, ifInRange_next_eq_fault_iff]; simp
    · rw [exec_opFx65, ifInRange_next_eq_fault_iff]; simp
    · rw [exec_opEx9E, withKey_next_eq_fault_iff]; simp
    · rw [exec_opExA1, withKey_next_eq_fault_iff]; simp
  · obtain ⟨t, ht⟩ := exec_next_of_not_mayFault hi s
    rw [ht]
    refine iff_of_false nofun fun hf => hi ?_
    obtain ⟨-, ⟨x, y, n, rfl, -⟩ | ⟨x, rfl, -⟩ | ⟨x, rfl | rfl, -⟩⟩ | ⟨x, rfl | rfl, -⟩ := hf <;> simp [mayFault]

/-- Settles O60: no operation refuses, and a step is a cycle or a move of the host. -/
theorem nothingIsRefused : Obligations.NothingIsRefused := by
  refine ⟨exec_ne_refused, fun s r => ?_⟩
  cases hs : s.script with
  | nil => rw [step_cycle s hs]; exact executeCycle_ne_refused _ s r
  | cons m rest => rw [step_move s m rest hs]; exact hostMove_ne_refused m _ r

end Sys2Proof.Machine
end

section
/-!
PROOFS. The cycle (40_execute_cycle.md, 20_memory.md): the fetch, the paused cycle and the fetch out of range, and the
obligations O28 and O41 to O43.
-/

namespace Sys2Proof.Machine

/-! ### The cycle -/

theorem executeCycle_paused (dt : Time) {s : State} (h : s.paused = true) : executeCycle dt s = .next s := by
  rw [executeCycle_cases, if_pos h]

theorem executeCycle_running (dt : Time) {s : State} (h : s.paused = false) :
    executeCycle dt s = fetchAndExecute (timerAdvance dt (countCycle s)) := by
  rw [executeCycle_cases, if_neg (by simp [h])]

/-- The timers do not change what is fetched. -/
theorem fetchWord_timerAdvance (dt : Time) (s : State) : fetchWord (timerAdvance dt (countCycle s)) = fetchWord s := rfl

/-- A running cycle whose two instruction bytes exist: the state of the dispatch has the timers advanced and `pc` moved
on (R91, R94). -/
theorem executeCycle_dispatch (dt : Time) {s : State} (hrun : s.paused = false) (hpc : s.pc.toNat + 2 ≤ 0x1000) :
    executeCycle dt s = exec (decodeWord (fetchWord s)) (setPc (timerAdvance dt (countCycle s)) (s.pc + 2)) := by
  rw [executeCycle_running dt hrun, fetchAndExecute_ok (timerAdvance dt (countCycle s)) hpc,
    fetchWord_timerAdvance, timerAdvance_pc, countCycle_pc]

/-- A running cycle whose fetch leaves the address space (R53). -/
theorem executeCycle_fetch_fault (dt : Time) {s : State} (hrun : s.paused = false) (hpc : 0x1000 < s.pc.toNat + 2) :
    executeCycle dt s = .fault (.addressOutOfRange (max s.pc.toNat 0x1000)) := by
  rw [executeCycle_running dt hrun, fetchAndExecute_fault (timerAdvance dt (countCycle s)) hpc, timerAdvance_pc,
    countCycle_pc]

/-- The registers that Fx55 stores at `pc` are the word that is fetched there (R51, R62). -/
theorem fetchWord_afterFx55 {s : State} {x : Reg} (hx : 1 ≤ x.val) (hpc : s.index = s.pc)
    (hr : s.index.toNat + x.val < 0x1000) (hm : s.mem.wf = true) :
    fetchWord (afterFx55 s x) = getV s 0 ++ getV s 1 := by
  have hhigh : readByte (afterFx55 s x).mem s.index.toNat = getV s 0 :=
    readByte_afterFx55 s (Fin.zero_le x) hr hm
  have hlow : readByte (afterFx55 s x).mem (s.index.toNat + 1) = getV s 1 :=
    readByte_afterFx55 s (i := 1) (Fin.le_def.mpr hx) hr hm
  have hfetch : (afterFx55 s x).pc.toNat = s.index.toNat := congrArg BitVec.toNat hpc.symm
  rw [fetchWord, hfetch, hhigh, hlow, bigEndian]

/-! ### Obligations -/

/-- Settles O28: the stored bytes are read back at the address that the next cycle fetches from. -/
theorem storedBytesAreFetchedNext : Obligations.StoredBytesAreFetchedNext := by
  intro x s dt hx hpc hr hm hrun
  have hr' : s.index.toNat + x.val < 0x1000 := hpc ▸ hr
  refine ⟨_, exec_opFx55_ok hr', rfl, ?_⟩
  rw [executeCycle_dispatch dt (s := afterFx55 s x) hrun (show s.pc.toNat + 2 ≤ 0x1000 by omega),
    fetchWord_afterFx55 hx hpc hr' hm]
  rfl

/-- Settles O41: the cycle in its case of a fetch in range; every word decodes to a well-formed instruction. -/
theorem stepRunsTheDecodedInstruction : Obligations.StepRunsTheDecodedInstruction := fun s hrun hpc =>
  ⟨(encodes_decodeWord _).1, fun dt => ⟨executeCycle_dispatch dt hrun hpc, stateAtFault_dispatch dt s hpc⟩,
    step_cycle s, fun dt rest => step_move s (.executeCycle dt) rest⟩

/-- Settles O42: the pause test comes first. -/
theorem pausedCycleChangesNothing : Obligations.PausedCycleChangesNothing := fun s hpaused =>
  ⟨fun dt => executeCycle_paused dt hpaused, fun hs => (step_cycle s hs).trans (executeCycle_paused _ hpaused)⟩

/-- Settles O43: the first address that the fetch cannot read is the larger one of `pc` and 0x1000. -/
theorem fetchOutOfRangeFaults : Obligations.FetchOutOfRangeFaults := by
  intro dt s hrun hpc
  have hmax : max s.pc.toNat 0x1000 = if s.pc.toNat = 0xFFF then 0x1000 else s.pc.toNat := by split <;> omega
  have hout : 0x1000 < s.pc.toNat + 2 := by omega
  exact ⟨by rw [executeCycle_fetch_fault dt hrun hout, hmax], stateAtFault_fetch dt s hout⟩

end Sys2Proof.Machine
end

section
/-!
PROOFS. The host's interface, construction and loading (70_reset_and_hazards.md, 10_state.md), and the obligations O44
to O48.
-/

namespace Sys2Proof.Machine

/-! ### Construction -/

theorem font_length : font.length = 80 := by decide

/-- The font stands from 0x050 on, byte by byte. -/
theorem font_getElem?_eq_initialByte {a : Nat} (hlow : 0x050 ≤ a) (hhigh : a ≤ 0x09F) :
    font[a - 0x050]? = some (initialByte a) := by
  have hlen : a - 0x050 < font.length := by rw [font_length]; omega
  rw [initialByte, if_pos hlow, List.getElem?_eq_getElem hlen, List.getD_eq_getElem _ _ hlen]

/-- Below and above the font every byte is 0. -/
theorem initialByte_eq_zero {a : Nat} (h : a < 0x050 ∨ 0x09F < a) : initialByte a = 0x00 := by
  obtain hlow | hhigh := h
  · rw [initialByte, if_neg (Nat.not_le.mpr hlow)]
  · have hlen : font.length ≤ a - 0x050 := by rw [font_length]; omega
    rw [initialByte, if_pos (show 0x050 ≤ a by omega), List.getD_eq_default _ _ hlen]

/-! ### Obligations -/

/-- Settles O44: each move comes next where it heads the script, and is one update of the state. -/
theorem hostMovesActBetweenCycles : Obligations.HostMovesActBetweenCycles := by
  intro s rest
  refine ⟨fun b hs => step_move s _ rest hs, fun k p hs => ⟨_, step_move s _ rest hs, ?_, fun j hj => ?_, rfl⟩,
    fun hs => ⟨_, step_move s _ rest hs, rfl, rfl, rfl⟩, fun bytes hs => step_move s _ rest hs,
    fun hs => step_move s _ rest hs⟩
  · exact Vector.getElem_set_self k.isLt
  · exact Vector.getElem_set_ne k.isLt j.isLt (Fin.val_ne_of_ne hj.symm)

/-- Settles O45, field by field. -/
theorem constructionDefaults : Obligations.ConstructionDefaults :=
  ⟨rfl, fun r => Vector.getElem_replicate r.isLt, rfl, rfl, rfl, rfl, rfl, rfl, rfl,
    fun _ hlow hhigh => font_getElem?_eq_initialByte hlow hhigh, fun _ h => initialByte_eq_zero h,
    getPixel_clearDisplay, rfl, fun k => Vector.getElem_replicate k.isLt, rfl⟩

/-- Settles O46: a load that fits writes one block into the memory of the reset. -/
theorem loadRomResetsAndCopies : Obligations.LoadRomResetsAndCopies := by
  intro bytes s hlen
  have hr : 0x200 + bytes.length ≤ 0x1000 := by omega
  exact ⟨_, loadRom_ok bytes s hlen, fun i b hb => readByte_writeBlock_same bytes [] 0x200 i b hb hr rfl,
    fun a ha => readByte_writeBlock_other bytes [] 0x200 a ha, rfl, wf_writeBlock bytes [] 0x200 hr rfl⟩

/-- Settles O47: a load that does not fit is the reset alone. -/
theorem loadRomTooLargeLeavesReset : Obligations.LoadRomTooLargeLeavesReset := fun bytes s hlen =>
  loadRom_tooLarge bytes s hlen

/-- Settles O48: the code view is a block of memory, the debug view the fields themselves. -/
theorem hostViewsShowTheState : Obligations.HostViewsShowTheState := by
  intro s
  refine ⟨readBlock_length _ _ _, rfl, fun i hi => readBlock_getElem? _ _ _ _ hi, fun r => ?_, rfl, rfl, rfl, rfl, rfl⟩
  simp [debugView, getV]

end Sys2Proof.Machine
end

section
/-!
PROOFS. The invariant of the machine (10_state.md): kept by every instruction, by the cycle and by every move of the
host, and the obligations O49 and O50.
-/

namespace Sys2Proof.Machine

/-! ### What an instruction keeps -/

/-- The two operations that write memory write inside the address space or fault. -/
theorem exec_keeps_wf {i : Instr} {s t : State} (h : exec i s = .next t) (hm : s.mem.wf = true) : t.mem.wf = true := by
  by_cases hi : writesMemory i
  · obtain ⟨x, rfl⟩ | ⟨x, rfl⟩ := hi
    · obtain ⟨hr, hnext⟩ := ifInRange_next (exec_opFx33 x s ▸ h)
      have hblock : s.index.toNat + (decimalDigits (getV s x)).length ≤ 0x1000 := hr.resolve_left (by decide)
      exact eq_of_next rfl hnext ▸ wf_writeBlock _ s.mem _ hblock hm
    · obtain ⟨hr, hnext⟩ := ifInRange_next (exec_opFx55 x s ▸ h)
      have hblock : s.index.toNat + (registersUpTo s x).length ≤ 0x1000 := by
        rw [registersUpTo_length]; exact hr.resolve_left (Nat.succ_ne_zero _)
      exact eq_of_next rfl hnext ▸ wf_writeBlock _ s.mem _ hblock hm
  · rw [(exec_frame h).memory hi]; exact hm

/-- A call pushes the `pc` it is dispatched with, a return only pops. -/
theorem exec_keeps_stack_bound {i : Instr} {s t : State} (h : exec i s = .next t) (hpc : s.pc.toNat ≤ 0x1000)
    (hstack : ∀ a ∈ s.stack, a.toNat ≤ 0x1000) : ∀ a ∈ t.stack, a.toNat ≤ 0x1000 := by
  by_cases hi : writesStack i
  · obtain ⟨nnn, rfl⟩ | rfl := hi
    · have hpush : ∀ a ∈ s.pc :: s.stack, a.toNat ≤ 0x1000 := List.forall_mem_cons.mpr ⟨hpc, hstack⟩
      exact eq_of_next (exec_op2nnn nnn s) h ▸ hpush
    · cases hs : s.stack with
      | nil => exact eq_of_next (exec_op00EE_of_nil hs) h ▸ hstack
      | cons top rest =>
        have hrest : ∀ a ∈ rest, a.toNat ≤ 0x1000 := fun a ha => hstack a (hs ▸ List.mem_cons_of_mem _ ha)
        exact eq_of_next (exec_op00EE_of_cons hs) h ▸ hrest
  · rw [(exec_frame h).stack hi]; exact hstack

theorem skipIf_pc_le (c : Bool) {s : State} (hpc : s.pc.toNat ≤ 0x1000) : (skipIf c s).pc.toNat ≤ 0x10FE := by
  rw [skipIf_pc]
  split
  · rw [BitVec.toNat_add]; simp; omega
  · omega

theorem withKey_skipIf_pc_le {s t : State} {b : Byte} {c : Bool → Bool} (hpc : s.pc.toNat ≤ 0x1000)
    (h : withKey s b (fun pressed => .next (skipIf (c pressed) s)) = .next t) : t.pc.toNat ≤ 0x10FE := by
  obtain hb | hb := Nat.lt_or_ge b.toNat 16
  · exact eq_of_next (withKey_ok s b _ hb) h ▸ skipIf_pc_le _ hpc
  · rw [withKey_fault s b _ hb] at h
    cases h

/-- From a dispatch, where `pc` is some `pc0 + 2` of at most 0x1000, no control transfer goes above 0x10FE (R95,
R108). -/
theorem exec_pc_le {i : Instr} {s t : State} (h : exec i s = .next t) (hlow : 2 ≤ s.pc.toNat)
    (hpc : s.pc.toNat ≤ 0x1000) (hstack : ∀ a ∈ s.stack, a.toNat ≤ 0x1000) : t.pc.toNat ≤ 0x10FE := by
  by_cases hi : movesPc i
  · have hsame : s.pc.toNat ≤ 0x10FE := by omega
    obtain rfl | ⟨nnn, rfl | rfl | rfl⟩ | ⟨x, kk, rfl | rfl⟩ | ⟨x, y, rfl | rfl⟩ | ⟨x, rfl | rfl | rfl⟩ := hi
    · cases hs : s.stack with
      | nil => exact eq_of_next (exec_op00EE_of_nil hs) h ▸ hsame
      | cons top rest =>
        have htop : top.toNat ≤ 0x1000 := hstack top (by simp [hs])
        have htop' : top.toNat ≤ 0x10FE := by omega
        exact eq_of_next (exec_op00EE_of_cons hs) h ▸ htop'
    · have htarget : (zextAddr nnn).toNat ≤ 0x10FE := by rw [zextAddr_toNat]; omega
      exact eq_of_next (exec_op1nnn nnn s) h ▸ htarget
    · have htarget : (zextAddr nnn).toNat ≤ 0x10FE := by rw [zextAddr_toNat]; omega
      exact eq_of_next (exec_op2nnn nnn s) h ▸ htarget
    · have htarget : (zextAddr nnn + zextByte (getV s 0)).toNat ≤ 0x10FE := by
        rw [zextAddr_add_zextByte_toNat]; omega
      exact eq_of_next (exec_opBnnn nnn s) h ▸ htarget
    · exact eq_of_next (exec_op3xkk x kk s) h ▸ skipIf_pc_le _ hpc
    · exact eq_of_next (exec_op4xkk x kk s) h ▸ skipIf_pc_le _ hpc
    · exact eq_of_next (exec_op5xy0 x y s) h ▸ skipIf_pc_le _ hpc
    · exact eq_of_next (exec_op9xy0 x y s) h ▸ skipIf_pc_le _ hpc
    · exact withKey_skipIf_pc_le (c := id) hpc (exec_opEx9E x s ▸ h)
    · exact withKey_skipIf_pc_le (c := not) hpc (exec_opExA1 x s ▸ h)
    · cases hk : lowestPressed s with
      | none =>
        have hle : (2 : Word) ≤ s.pc := hlow
        have hback : (s.pc - 2).toNat ≤ 0x10FE := by rw [BitVec.toNat_sub_of_le hle]; omega
        exact eq_of_next (exec_opFx0A_of_none x hk) h ▸ hback
      | some k => exact eq_of_next (exec_opFx0A_of_some x hk) h ▸ hsame
  · rw [(exec_frame h).pc hi]; omega

/-! ### What the cycle and the host keep -/

/-- The pre-increment of a fetch in range does not wrap. -/
theorem pc_add_two_toNat {s : State} (h : s.pc.toNat + 2 ≤ 0x1000) : (s.pc + 2).toNat = s.pc.toNat + 2 := by
  rw [BitVec.toNat_add]; simp; omega

theorem executeCycle_keeps_invariant {s t : State} {dt : Time} (hs : MachineInvariant s)
    (h : executeCycle dt s = .next t) : MachineInvariant t := by
  cases hrun : s.paused with
  | true => exact eq_of_next (executeCycle_paused dt hrun) h ▸ hs
  | false =>
    obtain hpc | hpc := Nat.lt_or_ge 0x1000 (s.pc.toNat + 2)
    · rw [executeCycle_fetch_fault dt hrun hpc] at h
      cases h
    · obtain ⟨hmem, hdelay, hsound, hlen, -, hstack⟩ := hs
      rw [executeCycle_dispatch dt hrun hpc] at h
      have hframe := exec_frame h
      have hnext := pc_add_two_toNat hpc
      refine ⟨exec_keeps_wf h hmem, ?_, ?_, ?_, exec_pc_le h ?_ ?_ hstack, exec_keeps_stack_bound h ?_ hstack⟩
      · rw [hframe.delayAcc]; exact quantize_acc_le _ dt hdelay
      · rw [hframe.soundAcc]; exact quantize_acc_le _ dt hsound
      · rw [hframe.loadedCodeLength]; exact hlen
      · rw [setPc_pc, hnext]; omega
      · rw [setPc_pc, hnext]; exact hpc
      · rw [setPc_pc, hnext]; exact hpc

theorem invariant_reset : MachineInvariant State.reset :=
  ⟨rfl, by simp [State.reset], by simp [State.reset], Nat.zero_le _, by decide, List.forall_mem_nil _⟩

/-- A load leaves the reset, with a block of memory written where it fits. -/
theorem loadRom_keeps_invariant (bytes : List Byte) (s : State) : MachineInvariant (loadRom bytes s).2 := by
  obtain ⟨hmem, hdelay, hsound, -, hpc, hstack⟩ := invariant_reset
  obtain hlen | hlen := Nat.lt_or_ge 3584 bytes.length
  · rw [loadRom_tooLarge bytes s hlen]
    exact invariant_reset
  · rw [loadRom_ok bytes s hlen]
    exact ⟨wf_writeBlock bytes [] 0x200 (by omega) rfl, hdelay, hsound, hlen, hpc, hstack⟩

theorem hostMove_keeps_invariant {m : HostMove} {s t : State} (hs : MachineInvariant s)
    (h : hostMove m s = .next t) : MachineInvariant t := by
  cases m with
  | construct => exact eq_of_next rfl h ▸ invariant_reset
  | loadRom bytes => exact eq_of_next rfl h ▸ loadRom_keeps_invariant bytes s
  | executeCycle dt => exact executeCycle_keeps_invariant hs h
  | setPaused value => exact eq_of_next rfl h ▸ hs
  | setKey k pressed => exact eq_of_next rfl h ▸ hs
  | acknowledgeDirty => exact eq_of_next rfl h ▸ hs

/-! ### Obligations -/

/-- Settles O49. -/
theorem invariantHoldsAtReset : Obligations.InvariantHoldsAtReset := invariant_reset

/-- Settles O50: a step is a cycle or a move of the host; in a cycle the dispatched instruction keeps memory, `pc` and
the stack in their bounds, and its frame the rest. -/
theorem everyStepKeepsTheInvariant : Obligations.EveryStepKeepsTheInvariant := by
  intro s t hs h
  cases hscript : s.script with
  | nil => exact executeCycle_keeps_invariant hs (step_cycle s hscript ▸ h)
  | cons m rest => exact hostMove_keeps_invariant (s := setScript s rest) hs (step_move s m rest hscript ▸ h)

end Sys2Proof.Machine
end
